-- ==== Sys2Proof/Word.lean ====
section
/-!
DEFINITION. The bit-vector types of the machine (`00_scope.md` R14, R15).
-/

namespace Sys2Proof

/-- A 32-bit register, address or ARM instruction word (`00_scope.md` R12). -/
abbrev Word := BitVec 32

/-- A 16-bit Thumb instruction halfword (`30_encoding.md` R250). -/
abbrev Half := BitVec 16

/-- A byte of memory (`20_memory.md` R151). -/
abbrev Byte := BitVec 8

/-- A 4-bit register field, naming R0 to R15 (`30_encoding.md` R250). -/
abbrev Reg := BitVec 4

/-- A 3-bit Thumb register field, naming R0 to R7 (`49_thumb.md` R801). -/
abbrev LowReg := BitVec 3

/-- The 5-bit mode field of a status word (`10_state.md` R53). -/
abbrev ModeBits := BitVec 5

end Sys2Proof
end

