-- ==== Sys2Proof/Config.lean ====
section
/-!
DEFINITION. The open parameters of the spec (`00_scope.md` R13) and the one free value. The parameters are
plain data, so a state carries a setting and a statement over every state speaks of every setting
(notes/assumptions/1.md).
-/

namespace Sys2Proof

/-- `EXC_POLICY`: what `raise` does (`60_exceptions.md` R900, D13). -/
inductive ExcPolicy where
  | noop
  | trap
  | fault
  deriving DecidableEq, Repr

/-- `BIOS_LOCK_BOUNDARY`: the length of the loaded boot image, or a number (`20_memory.md` R157, D6). -/
inductive BiosBoundary where
  | loaded
  | fixed (n : Nat)
  deriving DecidableEq, Repr

/-- `PC_READ_EXTRA`: 0 or 4 (`43_arm_single_transfer.md` R513, D17). -/
inductive PcReadExtra where
  | zero
  | four
  deriving DecidableEq, Repr

/-- The open parameters (`00_scope.md` R13). `RESET_FILL` is fixed at `Zero` (notes/assumptions/2.md); `RESET_NZCV`
is an argument of `State.construct`; the two interrupt lines and `biosLocked` are fields of State. -/
structure Config where
  excPolicy : ExcPolicy
  biosLockBoundary : BiosBoundary
  pcReadExtra : PcReadExtra
  misalignedStoreRotate : Bool
  /-- `IO_DEFAULTS`, offset 0 first; a byte the list does not reach is 0x00 (notes/assumptions/4.md). -/
  ioDefaults : List Byte
  deriving DecidableEq, Repr

/-- The defaults of `00_scope.md` R13. `IO_DEFAULTS` has none in the spec: DESIGN CHOICE all 0x00, unsafe
(notes/assumptions/4.md). -/
def Config.documentDefaults : Config where
  excPolicy := .noop
  biosLockBoundary := .loaded
  pcReadExtra := .zero
  misalignedStoreRotate := true
  ioDefaults := []

/-- `MUL_CARRY`: the free value of the k-th draw (`41_shifter_alu.md` R422, D24). It has no body, so nothing can be
proved of a drawn flag. DESIGN CHOICE, safe (notes/assumptions/5.md). -/
opaque Config.mulCarry : Nat → Bool

end Sys2Proof
end

