-- ==== Sys2Proof/Machine/State.lean ====
section
/-!
DEFINITION. The state of the CORE (`10_state.md` R50, R83), why a step can stop, and the state after reset.
-/

namespace Sys2Proof.Machine

/-- A status word as its fields (`10_state.md` R51, R52). Every one of the 32 bits is a field, the reserved ones
included (R55), so the record and the word carry the same data (`Psr.toWord`, `Psr.ofWord`; notes/assumptions/8.md). -/
structure Psr where
  /-- bit 31 -/
  n : Bool
  /-- bit 30 -/
  z : Bool
  /-- bit 29 -/
  c : Bool
  /-- bit 28 -/
  v : Bool
  /-- bits 27:8, stored as written -/
  reserved : BitVec 20
  /-- bit 7: IRQ masked -/
  i : Bool
  /-- bit 6: FIQ masked -/
  f : Bool
  /-- bit 5: Thumb state -/
  t : Bool
  /-- bits 4:0: the mode field, any code -/
  mode : ModeBits
  deriving DecidableEq, Repr

/-- The general-register words (`10_state.md` R61). -/
structure RegBank where
  r0 : Word
  r1 : Word
  r2 : Word
  r3 : Word
  r4 : Word
  r5 : Word
  r6 : Word
  r7 : Word
  r8usr : Word
  r9usr : Word
  r10usr : Word
  r11usr : Word
  r12usr : Word
  r8fiq : Word
  r9fiq : Word
  r10fiq : Word
  r11fiq : Word
  r12fiq : Word
  r13usr : Word
  r14usr : Word
  r13fiq : Word
  r14fiq : Word
  r13irq : Word
  r14irq : Word
  r13svc : Word
  r14svc : Word
  r13abt : Word
  r14abt : Word
  r13und : Word
  r14und : Word
  pc : Word
  deriving DecidableEq, Repr

/-- The saved status words and the dummy word (`10_state.md` R51, R66). -/
structure SpsrBank where
  fiq : Psr
  irq : Psr
  svc : Psr
  abt : Psr
  und : Psr
  dummy : Psr
  deriving DecidableEq, Repr

/-- The bytes of the region arrays and of the cartridge-ROM buffer, by storage address (`20_memory.md` R156;
notes/assumptions/11.md), in the canonical form `Memory.wf`. -/
abbrev Memory := List Host.Cell

/-- The ARMv4T UNPREDICTABLE cases the instruction rules name (`60_exceptions.md` R910, D15). -/
inductive UnpredictableCase where
  /-- `42_arm_data_processing.md` R453. -/
  | dpRegShiftR15
  /-- `43_arm_single_transfer.md` R504. -/
  | sdtOffsetR15
  /-- `43_arm_single_transfer.md` R504. -/
  | sdtWritebackR15
  /-- `43_arm_single_transfer.md` R504. -/
  | sdtWritebackRnIsRd
  /-- `43_arm_single_transfer.md` R504. -/
  | sdtByteR15
  /-- `43_arm_single_transfer.md` R504. -/
  | ldrPcMisaligned
  /-- `45_arm_psr_transfer.md` R601. -/
  | mrsR15
  /-- `45_arm_psr_transfer.md` R602. -/
  | msrR15
  /-- `46_arm_multiply.md` R651. -/
  | mulR15
  /-- `46_arm_multiply.md` R651. -/
  | mulRdIsRm
  /-- `46_arm_multiply.md` R652. -/
  | mullR15
  /-- `46_arm_multiply.md` R652. -/
  | mullRegisterClash
  /-- `47_arm_swap_halfword.md` R700. -/
  | swpR15
  /-- `47_arm_swap_halfword.md` R700. -/
  | swpBaseClash
  /-- `47_arm_swap_halfword.md` R711, R717. -/
  | signedStore
  /-- `47_arm_swap_halfword.md` R711. -/
  | halfwordPostWriteback
  /-- `47_arm_swap_halfword.md` R711. -/
  | halfwordR15
  /-- `47_arm_swap_halfword.md` R711. -/
  | halfwordOffsetR15
  /-- `47_arm_swap_halfword.md` R711. -/
  | halfwordWritebackR15
  /-- `47_arm_swap_halfword.md` R711. -/
  | halfwordWritebackRnIsRd
  /-- `48_arm_block_coproc_swi.md` R753. -/
  | blockBaseR15
  /-- `48_arm_block_coproc_swi.md` R753, `49_thumb.md` R866 to R869. -/
  | emptyRegisterList
  /-- `48_arm_block_coproc_swi.md` R753. -/
  | userBankWriteback
  /-- `48_arm_block_coproc_swi.md` R753. -/
  | userBankFromUserMode
  /-- `48_arm_block_coproc_swi.md` R753. -/
  | ldmWritebackBaseInList
  /-- `48_arm_block_coproc_swi.md` R753, `49_thumb.md` R868. -/
  | stmWritebackBaseNotFirst
  /-- `49_thumb.md` R833. -/
  | thumbMulRdIsRm
  /-- `49_thumb.md` R836 to R838. -/
  | hiRegLowOperands
  /-- `49_thumb.md` R839. -/
  | thumbBxH1
  deriving DecidableEq, Repr

/-- The fault reasons of `60_exceptions.md` R910. Each ends the step and the run (`40_pipeline.md` R353), so each is
safe: the machine stops where a chip would go on. -/
inductive FaultReason where
  /-- `resolve` of an index above 15 (`10_state.md` R64); no decoded instruction has one. Safe. -/
  | invalidRegisterIndex (i : Nat)
  /-- `step` before `initializeForExecution` (`40_pipeline.md` R376), or with an Empty executing slot, which no run
  reaches (notes/assumptions/10.md). Safe. -/
  | pipelineNotPrimed
  /-- An access to index 13 or 14 under an invalid mode code (`10_state.md` R65). Safe. -/
  | invalidMode (m : ModeBits)
  /-- A CPSR restore in a mode without a saved status word (`42_arm_data_processing.md` R452). Safe. -/
  | noSpsr
  /-- MSR to the CPSR that would change T (`45_arm_psr_transfer.md` R606). Safe. -/
  | tBitWrite
  /-- BX to an ARM-state target with bit 1 set (`44_arm_branch.md` R561, `49_thumb.md` R839). Safe. -/
  | misalignedBxTarget
  /-- An asserted, unmasked line under EXC_POLICY = Fault (`60_exceptions.md` R908). Safe. -/
  | interruptNotModelled
  /-- `raise UndefinedInstruction` under EXC_POLICY = Fault (`60_exceptions.md` R900). Safe. -/
  | undefinedInstruction
  /-- `raise SoftwareInterrupt` under EXC_POLICY = Fault (`60_exceptions.md` R900). Safe. -/
  | softwareInterrupt
  /-- An ARMv4T UNPREDICTABLE case (`30_encoding.md` R291). Safe. -/
  | unpredictable (case : UnpredictableCase)
  deriving DecidableEq, Repr

/-- The state of the CORE (`10_state.md` R50). -/
structure State where
  /-- The open parameters (`00_scope.md` R13), changed by no step (notes/assumptions/1.md). -/
  config : Config
  /-- The register bank (`10_state.md` R61). -/
  regs : RegBank
  /-- The current status word (`10_state.md` R51). -/
  cpsr : Psr
  /-- The saved status words (`10_state.md` R66). -/
  spsr : SpsrBank
  /-- The ARM slots (`10_state.md` R72). -/
  armFetched : Option Word
  armDecoding : Option Word
  armExecuting : Option Word
  /-- The Thumb slots (`10_state.md` R72). -/
  thFetched : Option Half
  thDecoding : Option Half
  thExecuting : Option Half
  /-- `10_state.md` R75. -/
  flushFlag : Bool
  /-- `10_state.md` R76. -/
  primed : Bool
  /-- The region arrays and `romBuffer` (`10_state.md` R77, R79). -/
  mem : Memory
  /-- The length of `romBuffer` (`10_state.md` R79). -/
  romSize : Nat
  /-- How many bytes the last `loadBootImage` copied (`10_state.md` R79). -/
  bootLoaded : Nat
  /-- `10_state.md` R79, written by the host only. -/
  biosLocked : Bool
  /-- `10_state.md` R78. -/
  openBusLatch : Byte
  /-- `IRQ_LINE`, set by the host between steps (`60_exceptions.md` R908; notes/assumptions/7.md). -/
  irqLine : Bool
  /-- `FIQ_LINE`, set by the host between steps (`60_exceptions.md` R908; notes/assumptions/7.md). -/
  fiqLine : Bool
  /-- The fault recorded, never cleared (`40_pipeline.md` R353, `60_exceptions.md` R910; notes/assumptions/9.md). -/
  faulted : Option FaultReason
  /-- THE MODEL'S OWN: the step's variable of this name (`40_pipeline.md` R352; notes/assumptions/6.md). -/
  flushRequested : Bool
  /-- THE MODEL'S OWN: how many `MUL_CARRY` draws were made (`41_shifter_alu.md` R422; notes/assumptions/5.md). -/
  draws : Nat
  deriving DecidableEq, Repr

/-- How a step stops (`40_pipeline.md` R353; notes/assumptions/9.md). -/
inductive Fault where
  /-- A rule raised the fault `reason` and `left` is the state as the completed writes left it, the reason recorded.
  Raised by the rules that `FaultReason` cites, through `stop`. Safe. -/
  | stopped (reason : FaultReason) (left : State)
  deriving DecidableEq, Repr

/-- Why exec gives an instruction no meaning. -/
inductive Refusal where
  /-- An arm of exec that is still rejected by name. Safe. No arm is. -/
  | notModelled (mnemonic : String)
  deriving DecidableEq, Repr

/-- What a meaning answers. -/
abbrev Answer := Host.Outcome State Fault Refusal

/-- A general-register bank of zeros: RESET_FILL = Zero and PC = 0 (`10_state.md` R70, R83). DESIGN CHOICE, unsafe:
the spec leaves RESET_FILL open (notes/assumptions/2.md). -/
def RegBank.zero : RegBank where
  r0 := 0
  r1 := 0
  r2 := 0
  r3 := 0
  r4 := 0
  r5 := 0
  r6 := 0
  r7 := 0
  r8usr := 0
  r9usr := 0
  r10usr := 0
  r11usr := 0
  r12usr := 0
  r8fiq := 0
  r9fiq := 0
  r10fiq := 0
  r11fiq := 0
  r12fiq := 0
  r13usr := 0
  r14usr := 0
  r13fiq := 0
  r14fiq := 0
  r13irq := 0
  r14irq := 0
  r13svc := 0
  r14svc := 0
  r13abt := 0
  r14abt := 0
  r13und := 0
  r14und := 0
  pc := 0

/-- The status word 0x00000000. -/
def Psr.zero : Psr where
  n := false
  z := false
  c := false
  v := false
  reserved := 0
  i := false
  f := false
  t := false
  mode := 0

/-- The CPSR after CPU reset, 0x000000D3 with the flags N Z C V of `RESET_NZCV` (`70_reset_and_hazards.md` R950). -/
def Psr.atReset (n z c v : Bool) : Psr where
  n := n
  z := z
  c := c
  v := v
  reserved := 0
  i := true
  f := true
  t := false
  mode := 0x13

/-- The machine right after CPU reset (`70_reset_and_hazards.md` R950, `10_state.md` R83), with the parameters'
defaults (`00_scope.md` R13) and the flags 0000 (DESIGN CHOICE, unsafe: notes/assumptions/3.md). Nothing is listed in
memory: RAM reads 0x00, SRAM 0xFF, the I/O array 0x00 (notes/assumptions/4.md, notes/assumptions/12.md). -/
def State.reset : State where
  config := Config.documentDefaults
  regs := RegBank.zero
  cpsr := Psr.atReset false false false false
  spsr :=
    { fiq := Psr.zero, irq := Psr.zero, svc := Psr.zero, abt := Psr.zero, und := Psr.zero, dummy := Psr.zero }
  armFetched := none
  armDecoding := none
  armExecuting := none
  thFetched := none
  thDecoding := none
  thExecuting := none
  flushFlag := false
  primed := false
  mem := []
  romSize := 0
  bootLoaded := 0
  biosLocked := false
  openBusLatch := 0
  irqLine := false
  fiqLine := false
  faulted := none
  flushRequested := false
  draws := 0

end Sys2Proof.Machine
end

