-- ==== Sys2Proof/Syntax.lean ====
section
/-!
DEFINITION. The instructions: one constructor of `Instr` per row of `opcode_table.json` (`30_encoding.md` R302), in the
table's order, with the row's fields as operands. Bits `30_encoding.md` R255 leaves unchecked are no operand. Beyond the
table's fields stand only bits a rule reads or an undefined word holds (notes/assumptions/14.md, notes/assumptions/15.md).
-/

namespace Sys2Proof

/-- The sixteen condition codes (`40_pipeline.md` R363). -/
inductive Cond where
  | eq | ne | cs | cc | mi | pl | vs | vc | hi | ls | ge | lt | gt | le | al | nv
  deriving DecidableEq, Repr

/-- The four shift kinds (`30_encoding.md` R260). -/
inductive ShiftKind where
  | lsl | lsr | asr | ror
  deriving DecidableEq, Repr

/-- The sixteen data-processing opcodes (`30_encoding.md` R260). -/
inductive DpOp where
  | and | eor | sub | rsb | add | adc | sbc | rsc | tst | teq | cmp | cmn | orr | mov | bic | mvn
  deriving DecidableEq, Repr

/-- The offset of a single data transfer: I = 0 or I = 1 (`30_encoding.md` R265). -/
inductive SdtOffset where
  | imm (offset12 : BitVec 12)
  | reg (amount : BitVec 5) (k : ShiftKind) (rm : Reg)
  deriving DecidableEq, Repr

/-- The instructions. `c` is the condition field, `sf` the set-flags bit S, `p u w` the bits P, U and W, `sb` the
block transfers' S bit, `r` the R bit of MRS and MSR or of the Thumb push and pop; a trailing comment gives the row's
mnemonic and its rule. -/
inductive Instr where
  -- BX (format A10)
  | bx (c : Cond) (rm : Reg)  -- BX (R561)
  -- MUL and MLA (format A7)
  | mul (c : Cond) (sf : Bool) (rd rs rm : Reg)  -- MUL (R653)
  | mla (c : Cond) (sf : Bool) (rd rn rs rm : Reg)  -- MLA (R654)
  -- multiply long (format A8)
  | umull (c : Cond) (sf : Bool) (rdHi rdLo rs rm : Reg)  -- UMULL (R655)
  | umlal (c : Cond) (sf : Bool) (rdHi rdLo rs rm : Reg)  -- UMLAL (R656)
  | smull (c : Cond) (sf : Bool) (rdHi rdLo rs rm : Reg)  -- SMULL (R657)
  | smlal (c : Cond) (sf : Bool) (rdHi rdLo rs rm : Reg)  -- SMLAL (R658)
  -- single data swap (format A9)
  | swp (c : Cond) (rn rd rm : Reg)  -- SWP (R701)
  | swpb (c : Cond) (rn rd rm : Reg)  -- SWPB (R702)
  -- halfword and signed transfers (formats A11, A12)
  | strhImm (c : Cond) (p u w : Bool) (rn rd : Reg) (immHi immLo : BitVec 4)  -- STRH_imm (R714)
  | strhReg (c : Cond) (p u w : Bool) (rn rd rm : Reg)  -- STRH_reg (R714)
  | ldrhImm (c : Cond) (p u w : Bool) (rn rd : Reg) (immHi immLo : BitVec 4)  -- LDRH_imm (R713)
  | ldrhReg (c : Cond) (p u w : Bool) (rn rd rm : Reg)  -- LDRH_reg (R713)
  | ldrsbImm (c : Cond) (p u w : Bool) (rn rd : Reg) (immHi immLo : BitVec 4)  -- LDRSB_imm (R715)
  | ldrsbReg (c : Cond) (p u w : Bool) (rn rd rm : Reg)  -- LDRSB_reg (R715)
  | ldrshImm (c : Cond) (p u w : Bool) (rn rd : Reg) (immHi immLo : BitVec 4)  -- LDRSH_imm (R716)
  | ldrshReg (c : Cond) (p u w : Bool) (rn rd rm : Reg)  -- LDRSH_reg (R716)
  | halfwordSignedStore (c : Cond) (p u i w : Bool) (rn rd : Reg) (hi : BitVec 4) (h : Bool) (lo : BitVec 4)  -- HALFWORD_SIGNED_STORE (R717)
  -- status-register transfer (formats A4 to A6)
  | mrs (c : Cond) (r : Bool) (rd : Reg)  -- MRS (R601)
  | msrReg (c : Cond) (r : Bool) (mask : BitVec 4) (rm : Reg)  -- MSR_reg (R609)
  | msrImm (c : Cond) (r : Bool) (mask rot : BitVec 4) (imm8 : BitVec 8)  -- MSR_imm (R610)
  -- data processing (formats A1 to A3)
  | andImm (c : Cond) (sf : Bool) (rn rd : Reg) (rot : BitVec 4) (imm8 : BitVec 8)  -- AND_imm (R460)
  | andRegImmShift (c : Cond) (sf : Bool) (rn rd : Reg) (amount : BitVec 5) (k : ShiftKind) (rm : Reg)  -- AND_reg_imm_shift (R460)
  | andRegRegShift (c : Cond) (sf : Bool) (rn rd rs : Reg) (k : ShiftKind) (rm : Reg)  -- AND_reg_reg_shift (R460)
  | eorImm (c : Cond) (sf : Bool) (rn rd : Reg) (rot : BitVec 4) (imm8 : BitVec 8)  -- EOR_imm (R461)
  | eorRegImmShift (c : Cond) (sf : Bool) (rn rd : Reg) (amount : BitVec 5) (k : ShiftKind) (rm : Reg)  -- EOR_reg_imm_shift (R461)
  | eorRegRegShift (c : Cond) (sf : Bool) (rn rd rs : Reg) (k : ShiftKind) (rm : Reg)  -- EOR_reg_reg_shift (R461)
  | subImm (c : Cond) (sf : Bool) (rn rd : Reg) (rot : BitVec 4) (imm8 : BitVec 8)  -- SUB_imm (R462)
  | subRegImmShift (c : Cond) (sf : Bool) (rn rd : Reg) (amount : BitVec 5) (k : ShiftKind) (rm : Reg)  -- SUB_reg_imm_shift (R462)
  | subRegRegShift (c : Cond) (sf : Bool) (rn rd rs : Reg) (k : ShiftKind) (rm : Reg)  -- SUB_reg_reg_shift (R462)
  | rsbImm (c : Cond) (sf : Bool) (rn rd : Reg) (rot : BitVec 4) (imm8 : BitVec 8)  -- RSB_imm (R463)
  | rsbRegImmShift (c : Cond) (sf : Bool) (rn rd : Reg) (amount : BitVec 5) (k : ShiftKind) (rm : Reg)  -- RSB_reg_imm_shift (R463)
  | rsbRegRegShift (c : Cond) (sf : Bool) (rn rd rs : Reg) (k : ShiftKind) (rm : Reg)  -- RSB_reg_reg_shift (R463)
  | addImm (c : Cond) (sf : Bool) (rn rd : Reg) (rot : BitVec 4) (imm8 : BitVec 8)  -- ADD_imm (R464)
  | addRegImmShift (c : Cond) (sf : Bool) (rn rd : Reg) (amount : BitVec 5) (k : ShiftKind) (rm : Reg)  -- ADD_reg_imm_shift (R464)
  | addRegRegShift (c : Cond) (sf : Bool) (rn rd rs : Reg) (k : ShiftKind) (rm : Reg)  -- ADD_reg_reg_shift (R464)
  | adcImm (c : Cond) (sf : Bool) (rn rd : Reg) (rot : BitVec 4) (imm8 : BitVec 8)  -- ADC_imm (R465)
  | adcRegImmShift (c : Cond) (sf : Bool) (rn rd : Reg) (amount : BitVec 5) (k : ShiftKind) (rm : Reg)  -- ADC_reg_imm_shift (R465)
  | adcRegRegShift (c : Cond) (sf : Bool) (rn rd rs : Reg) (k : ShiftKind) (rm : Reg)  -- ADC_reg_reg_shift (R465)
  | sbcImm (c : Cond) (sf : Bool) (rn rd : Reg) (rot : BitVec 4) (imm8 : BitVec 8)  -- SBC_imm (R466)
  | sbcRegImmShift (c : Cond) (sf : Bool) (rn rd : Reg) (amount : BitVec 5) (k : ShiftKind) (rm : Reg)  -- SBC_reg_imm_shift (R466)
  | sbcRegRegShift (c : Cond) (sf : Bool) (rn rd rs : Reg) (k : ShiftKind) (rm : Reg)  -- SBC_reg_reg_shift (R466)
  | rscImm (c : Cond) (sf : Bool) (rn rd : Reg) (rot : BitVec 4) (imm8 : BitVec 8)  -- RSC_imm (R467)
  | rscRegImmShift (c : Cond) (sf : Bool) (rn rd : Reg) (amount : BitVec 5) (k : ShiftKind) (rm : Reg)  -- RSC_reg_imm_shift (R467)
  | rscRegRegShift (c : Cond) (sf : Bool) (rn rd rs : Reg) (k : ShiftKind) (rm : Reg)  -- RSC_reg_reg_shift (R467)
  | tstImm (c : Cond) (rn : Reg) (rot : BitVec 4) (imm8 : BitVec 8)  -- TST_imm (R468)
  | tstRegImmShift (c : Cond) (rn : Reg) (amount : BitVec 5) (k : ShiftKind) (rm : Reg)  -- TST_reg_imm_shift (R468)
  | tstRegRegShift (c : Cond) (rn rd rs : Reg) (k : ShiftKind) (rm : Reg)  -- TST_reg_reg_shift (R468)
  | teqImm (c : Cond) (rn : Reg) (rot : BitVec 4) (imm8 : BitVec 8)  -- TEQ_imm (R469)
  | teqRegImmShift (c : Cond) (rn : Reg) (amount : BitVec 5) (k : ShiftKind) (rm : Reg)  -- TEQ_reg_imm_shift (R469)
  | teqRegRegShift (c : Cond) (rn rd rs : Reg) (k : ShiftKind) (rm : Reg)  -- TEQ_reg_reg_shift (R469)
  | cmpImm (c : Cond) (rn : Reg) (rot : BitVec 4) (imm8 : BitVec 8)  -- CMP_imm (R470)
  | cmpRegImmShift (c : Cond) (rn : Reg) (amount : BitVec 5) (k : ShiftKind) (rm : Reg)  -- CMP_reg_imm_shift (R470)
  | cmpRegRegShift (c : Cond) (rn rd rs : Reg) (k : ShiftKind) (rm : Reg)  -- CMP_reg_reg_shift (R470)
  | cmnImm (c : Cond) (rn : Reg) (rot : BitVec 4) (imm8 : BitVec 8)  -- CMN_imm (R471)
  | cmnRegImmShift (c : Cond) (rn : Reg) (amount : BitVec 5) (k : ShiftKind) (rm : Reg)  -- CMN_reg_imm_shift (R471)
  | cmnRegRegShift (c : Cond) (rn rd rs : Reg) (k : ShiftKind) (rm : Reg)  -- CMN_reg_reg_shift (R471)
  | orrImm (c : Cond) (sf : Bool) (rn rd : Reg) (rot : BitVec 4) (imm8 : BitVec 8)  -- ORR_imm (R472)
  | orrRegImmShift (c : Cond) (sf : Bool) (rn rd : Reg) (amount : BitVec 5) (k : ShiftKind) (rm : Reg)  -- ORR_reg_imm_shift (R472)
  | orrRegRegShift (c : Cond) (sf : Bool) (rn rd rs : Reg) (k : ShiftKind) (rm : Reg)  -- ORR_reg_reg_shift (R472)
  | movImm (c : Cond) (sf : Bool) (rd : Reg) (rot : BitVec 4) (imm8 : BitVec 8)  -- MOV_imm (R473)
  | movRegImmShift (c : Cond) (sf : Bool) (rd : Reg) (amount : BitVec 5) (k : ShiftKind) (rm : Reg)  -- MOV_reg_imm_shift (R473)
  | movRegRegShift (c : Cond) (sf : Bool) (rn rd rs : Reg) (k : ShiftKind) (rm : Reg)  -- MOV_reg_reg_shift (R473)
  | bicImm (c : Cond) (sf : Bool) (rn rd : Reg) (rot : BitVec 4) (imm8 : BitVec 8)  -- BIC_imm (R474)
  | bicRegImmShift (c : Cond) (sf : Bool) (rn rd : Reg) (amount : BitVec 5) (k : ShiftKind) (rm : Reg)  -- BIC_reg_imm_shift (R474)
  | bicRegRegShift (c : Cond) (sf : Bool) (rn rd rs : Reg) (k : ShiftKind) (rm : Reg)  -- BIC_reg_reg_shift (R474)
  | mvnImm (c : Cond) (sf : Bool) (rd : Reg) (rot : BitVec 4) (imm8 : BitVec 8)  -- MVN_imm (R475)
  | mvnRegImmShift (c : Cond) (sf : Bool) (rd : Reg) (amount : BitVec 5) (k : ShiftKind) (rm : Reg)  -- MVN_reg_imm_shift (R475)
  | mvnRegRegShift (c : Cond) (sf : Bool) (rn rd rs : Reg) (k : ShiftKind) (rm : Reg)  -- MVN_reg_reg_shift (R475)
  -- undefined
  | undefinedRow8 (c : Cond) (upper : BitVec 20) (lower : BitVec 4)  -- UNDEFINED_ROW8 (R790)
  -- single data transfer (format A13)
  | strt (c : Cond) (u : Bool) (rn rd : Reg) (off : SdtOffset)  -- STRT (R518)
  | ldrt (c : Cond) (u : Bool) (rn rd : Reg) (off : SdtOffset)  -- LDRT (R516)
  | strbt (c : Cond) (u : Bool) (rn rd : Reg) (off : SdtOffset)  -- STRBT (R519)
  | ldrbt (c : Cond) (u : Bool) (rn rd : Reg) (off : SdtOffset)  -- LDRBT (R517)
  | str (c : Cond) (p u w : Bool) (rn rd : Reg) (off : SdtOffset)  -- STR (R512)
  | ldr (c : Cond) (p u w : Bool) (rn rd : Reg) (off : SdtOffset)  -- LDR (R510)
  | strb (c : Cond) (p u w : Bool) (rn rd : Reg) (off : SdtOffset)  -- STRB (R515)
  | ldrb (c : Cond) (p u w : Bool) (rn rd : Reg) (off : SdtOffset)  -- LDRB (R514)
  -- block data transfer (format A15)
  | stmda (c : Cond) (sb w : Bool) (rn : Reg) (list : BitVec 16)  -- STMDA (R766)
  | ldmda (c : Cond) (sb w : Bool) (rn : Reg) (list : BitVec 16)  -- LDMDA (R762)
  | stmia (c : Cond) (sb w : Bool) (rn : Reg) (list : BitVec 16)  -- STMIA (R764)
  | ldmia (c : Cond) (sb w : Bool) (rn : Reg) (list : BitVec 16)  -- LDMIA (R760)
  | stmdb (c : Cond) (sb w : Bool) (rn : Reg) (list : BitVec 16)  -- STMDB (R767)
  | ldmdb (c : Cond) (sb w : Bool) (rn : Reg) (list : BitVec 16)  -- LDMDB (R763)
  | stmib (c : Cond) (sb w : Bool) (rn : Reg) (list : BitVec 16)  -- STMIB (R765)
  | ldmib (c : Cond) (sb w : Bool) (rn : Reg) (list : BitVec 16)  -- LDMIB (R761)
  -- branch (format A16)
  | b (c : Cond) (imm24 : BitVec 24)  -- B (R558)
  | bl (c : Cond) (imm24 : BitVec 24)  -- BL (R559)
  -- coprocessor transfer space (format A17)
  | ldcStcUndefined (c : Cond) (p u n w l : Bool) (rn : Reg) (crd cp : BitVec 4) (off : BitVec 8)  -- LDC_STC_undefined (R774)
  -- CDP (format A18)
  | cdp (c : Cond) (op1 crn crd cp : BitVec 4) (op2 : BitVec 3) (crm : BitVec 4)  -- CDP (R771)
  -- MCR and MRC (format A19)
  | mcr (c : Cond) (op1 : BitVec 3) (crn : BitVec 4) (rd : Reg) (cp : BitVec 4) (op2 : BitVec 3) (crm : BitVec 4)  -- MCR (R772)
  | mrc (c : Cond) (op1 : BitVec 3) (crn : BitVec 4) (rd : Reg) (cp : BitVec 4) (op2 : BitVec 3) (crm : BitVec 4)  -- MRC (R773)
  -- SWI (format A20)
  | swi (c : Cond) (comment : BitVec 24)  -- SWI (R780)
  -- Thumb add/subtract (format T2)
  | tAddReg (rn rs rd : LowReg)  -- T_ADD_reg (R810)
  | tSubReg (rn rs rd : LowReg)  -- T_SUB_reg (R811)
  | tAddImm3 (imm3 : BitVec 3) (rs rd : LowReg)  -- T_ADD_imm3 (R812)
  | tSubImm3 (imm3 : BitVec 3) (rs rd : LowReg)  -- T_SUB_imm3 (R813)
  -- Thumb move shifted register (format T1)
  | tLslImm (amount : BitVec 5) (rs rd : LowReg)  -- T_LSL_imm (R805)
  | tLsrImm (amount : BitVec 5) (rs rd : LowReg)  -- T_LSR_imm (R806)
  | tAsrImm (amount : BitVec 5) (rs rd : LowReg)  -- T_ASR_imm (R807)
  -- Thumb move/compare/add/subtract immediate (format T3)
  | tMovImm (rd : LowReg) (imm8 : BitVec 8)  -- T_MOV_imm (R815)
  | tCmpImm (rd : LowReg) (imm8 : BitVec 8)  -- T_CMP_imm (R816)
  | tAddImm8 (rd : LowReg) (imm8 : BitVec 8)  -- T_ADD_imm8 (R817)
  | tSubImm8 (rd : LowReg) (imm8 : BitVec 8)  -- T_SUB_imm8 (R818)
  -- Thumb ALU operations (format T4)
  | tAnd (rs rd : LowReg)  -- T_AND (R820)
  | tEor (rs rd : LowReg)  -- T_EOR (R821)
  | tLslReg (rs rd : LowReg)  -- T_LSL_reg (R822)
  | tLsrReg (rs rd : LowReg)  -- T_LSR_reg (R823)
  | tAsrReg (rs rd : LowReg)  -- T_ASR_reg (R824)
  | tAdc (rs rd : LowReg)  -- T_ADC (R825)
  | tSbc (rs rd : LowReg)  -- T_SBC (R826)
  | tRor (rs rd : LowReg)  -- T_ROR (R827)
  | tTst (rs rd : LowReg)  -- T_TST (R828)
  | tNeg (rs rd : LowReg)  -- T_NEG (R829)
  | tCmpReg (rs rd : LowReg)  -- T_CMP_reg (R830)
  | tCmn (rs rd : LowReg)  -- T_CMN (R831)
  | tOrr (rs rd : LowReg)  -- T_ORR (R832)
  | tMul (rs rd : LowReg)  -- T_MUL (R833)
  | tBic (rs rd : LowReg)  -- T_BIC (R834)
  | tMvn (rs rd : LowReg)  -- T_MVN (R835)
  -- Thumb hi-register operations and BX (format T5)
  | tAddHi (h1 h2 : Bool) (rs rd : LowReg)  -- T_ADD_hi (R836)
  | tCmpHi (h1 h2 : Bool) (rs rd : LowReg)  -- T_CMP_hi (R837)
  | tMovHi (h1 h2 : Bool) (rs rd : LowReg)  -- T_MOV_hi (R838)
  | tBx (h1 h2 : Bool) (rs rd : LowReg)  -- T_BX (R839)
  -- Thumb PC-relative load (format T6)
  | tLdrPc (rd : LowReg) (word8 : BitVec 8)  -- T_LDR_pc (R840)
  -- Thumb load/store register offset (format T7)
  | tStrReg (ro rb rd : LowReg)  -- T_STR_reg (R842)
  | tStrbReg (ro rb rd : LowReg)  -- T_STRB_reg (R843)
  | tLdrReg (ro rb rd : LowReg)  -- T_LDR_reg (R844)
  | tLdrbReg (ro rb rd : LowReg)  -- T_LDRB_reg (R845)
  -- Thumb load/store sign-extended (format T8)
  | tStrhReg (ro rb rd : LowReg)  -- T_STRH_reg (R846)
  | tLdsb (ro rb rd : LowReg)  -- T_LDSB (R847)
  | tLdrhReg (ro rb rd : LowReg)  -- T_LDRH_reg (R848)
  | tLdsh (ro rb rd : LowReg)  -- T_LDSH (R849)
  -- Thumb load/store immediate offset (format T9)
  | tStrImm (off5 : BitVec 5) (rb rd : LowReg)  -- T_STR_imm (R850)
  | tLdrImm (off5 : BitVec 5) (rb rd : LowReg)  -- T_LDR_imm (R851)
  | tStrbImm (off5 : BitVec 5) (rb rd : LowReg)  -- T_STRB_imm (R852)
  | tLdrbImm (off5 : BitVec 5) (rb rd : LowReg)  -- T_LDRB_imm (R853)
  -- Thumb load/store halfword (format T10)
  | tStrhImm (off5 : BitVec 5) (rb rd : LowReg)  -- T_STRH_imm (R854)
  | tLdrhImm (off5 : BitVec 5) (rb rd : LowReg)  -- T_LDRH_imm (R855)
  -- Thumb SP-relative load/store (format T11)
  | tStrSp (rd : LowReg) (word8 : BitVec 8)  -- T_STR_sp (R856)
  | tLdrSp (rd : LowReg) (word8 : BitVec 8)  -- T_LDR_sp (R857)
  -- Thumb load address (format T12)
  | tAddPc (rd : LowReg) (word8 : BitVec 8)  -- T_ADD_pc (R862)
  | tAddSpRd (rd : LowReg) (word8 : BitVec 8)  -- T_ADD_sp_rd (R863)
  -- Thumb add offset to SP (format T13)
  | tAddSpImm (sword7 : BitVec 7)  -- T_ADD_sp_imm (R864)
  | tSubSpImm (sword7 : BitVec 7)  -- T_SUB_sp_imm (R865)
  -- Thumb push/pop (format T14)
  | tPush (r : Bool) (rlist : BitVec 8)  -- T_PUSH (R866)
  | tPop (r : Bool) (rlist : BitVec 8)  -- T_POP (R867)
  -- Thumb multiple load/store (format T15)
  | tStmia (rb : LowReg) (rlist : BitVec 8)  -- T_STMIA (R868)
  | tLdmia (rb : LowReg) (rlist : BitVec 8)  -- T_LDMIA (R869)
  -- Thumb software interrupt (format T17)
  | tSwi (value8 : BitVec 8)  -- T_SWI (R877)
  -- Thumb undefined
  | tUndefinedDe (payload : BitVec 8)  -- T_UNDEFINED_DE (R881)
  -- Thumb conditional branch (format T16)
  | tBCond (c : Cond) (soff8 : BitVec 8)  -- T_B_cond (R876)
  -- Thumb branch (format T18)
  | tB (off11 : BitVec 11)  -- T_B (R880)
  -- Thumb undefined
  | tUndefinedE8 (payload : BitVec 11)  -- T_UNDEFINED_E8 (R881)
  -- Thumb long branch with link (format T19)
  | tBlFirst (off11 : BitVec 11)  -- T_BL_first (R878)
  | tBlSecond (off11 : BitVec 11)  -- T_BL_second (R879)
  -- Thumb undefined
  | tUndefinedB (payload : BitVec 12)  -- T_UNDEFINED_B (R881)
  deriving DecidableEq, Repr

end Sys2Proof
end

