-- ==== Sys2Proof/Machine/Flags.lean ====
section
/-!
DEFINITION. The adder, the flag helpers and condition evaluation (`41_shifter_alu.md` R415 to R419,
`42_arm_data_processing.md` R451, `40_pipeline.md` R363). Pure functions; none reads or writes the state.
-/

namespace Sys2Proof.Machine

/-- What the adder answers (`41_shifter_alu.md` R416). -/
structure Sum where
  result : Word
  carry : Bool
  overflow : Bool
  deriving DecidableEq, Repr

/-- The one adder (`41_shifter_alu.md` R416): the carry is that of the exact sum (R418), the overflow that of the signs. -/
def addWithCarry (a b : Word) (cin : Bool) : Sum :=
  let sum := a.toNat + b.toNat + cin.toNat
  let r := BitVec.ofNat 32 sum
  { result := r
    carry := decide (2 ^ 32 ≤ sum)
    overflow := (a.msb == b.msb) && (r.msb != a.msb) }

/-- Subtraction `a - b` through the adder (`41_shifter_alu.md` R417). -/
def subtract (a b : Word) : Sum := addWithCarry a (~~~b) true

/-- `SetNZ` (`42_arm_data_processing.md` R451). -/
def Psr.setNZ (p : Psr) (r : Word) : Psr := { p with n := r.msb, z := r == 0 }

/-- `SetNZC` (`42_arm_data_processing.md` R451). -/
def Psr.setNZC (p : Psr) (r : Word) (c : Bool) : Psr := { p.setNZ r with c := c }

/-- `SetNZCV` (`42_arm_data_processing.md` R451). -/
def Psr.setNZCV (p : Psr) (x : Sum) : Psr := { p.setNZC x.result x.carry with v := x.overflow }

/-- `ConditionPassed` (`40_pipeline.md` R363). -/
def Cond.passed (c : Cond) (p : Psr) : Bool :=
  match c with
  | .eq => p.z
  | .ne => !p.z
  | .cs => p.c
  | .cc => !p.c
  | .mi => p.n
  | .pl => !p.n
  | .vs => p.v
  | .vc => !p.v
  | .hi => p.c && !p.z
  | .ls => !p.c || p.z
  | .ge => p.n == p.v
  | .lt => p.n != p.v
  | .gt => !p.z && (p.n == p.v)
  | .le => p.z || (p.n != p.v)
  | .al => true
  | .nv => false

end Sys2Proof.Machine
end

