-- ==== Sys2Proof/Machine/Memory.lean ====
section
/-!
DEFINITION. The byte store: a list of (storage address, byte) in one canonical form, and the region arrays laid out in
it (`20_memory.md` R153 to R173).
-/

namespace Sys2Proof.Machine

/-- What a storage address that is not listed holds: 0xFF in save RAM, 0x00 everywhere else (`10_state.md` R83,
`20_memory.md` R158; notes/assumptions/12.md). -/
def unlisted (k : Nat) : Byte := if 0x0E000000 ≤ k ∧ k < 0x0E010000 then 0xFF else 0x00

/-- The byte at a storage address. -/
def Memory.read : Memory → Nat → Byte
  | [], a => unlisted a
  | (k, v) :: m, a => if k = a then v else Memory.read m a

/-- Store a byte, keeping the canonical form: the value of an unlisted address is never listed. -/
def Memory.write : Memory → Nat → Byte → Memory
  | [], a, b => if b = unlisted a then [] else [(a, b)]
  | (k, v) :: m, a, b =>
    if a < k then (if b = unlisted a then (k, v) :: m else (a, b) :: (k, v) :: m)
    else if a = k then (if b = unlisted a then m else (a, b) :: m)
    else (k, v) :: Memory.write m a b

/-- The canonical form from address `lo` on: addresses rising, no entry equal to what an unlisted address holds. -/
def Memory.wfFrom : Nat → Memory → Bool
  | _, [] => true
  | lo, (k, v) :: m => decide (lo ≤ k) && (v != unlisted k) && Memory.wfFrom (k + 1) m

/-- The canonical form of a memory. -/
def Memory.wf (m : Memory) : Bool := Memory.wfFrom 0 m

/-- Store a sequence of bytes at rising storage addresses. -/
def Memory.writeList : Memory → Nat → List Byte → Memory
  | m, _, [] => m
  | m, a, b :: bs => Memory.writeList (Memory.write m a b) (a + 1) bs

/-- The regions of the address map (`20_memory.md` R155, R156). -/
inductive Region where
  | bios
  | ewram
  | iwram
  | io
  | palette
  | vram
  | oam
  | rom
  | sram
  | unmapped
  deriving DecidableEq, Repr

/-- The region of an address, by its top byte (`20_memory.md` R153, R156). -/
def regionOf (a : Word) : Region :=
  let top := (a.extractLsb' 24 8).toNat
  if top = 0x00 then .bios
  else if top = 0x02 then .ewram
  else if top = 0x03 then .iwram
  else if top = 0x04 then .io
  else if top = 0x05 then .palette
  else if top = 0x06 then .vram
  else if top = 0x07 then .oam
  else if 0x08 ≤ top ∧ top ≤ 0x0D then .rom
  else if top = 0x0E ∨ top = 0x0F then .sram
  else .unmapped

/-- The offset of an address in its region (`20_memory.md` R156). -/
def offsetIn (r : Region) (a : Word) : Nat :=
  match r with
  | .bios => (a &&& 0x00FFFFFF#32).toNat
  | .ewram => (a &&& 0x0003FFFF#32).toNat
  | .iwram => (a &&& 0x00007FFF#32).toNat
  | .io => (a &&& 0x00FFFFFF#32).toNat
  | .palette => (a &&& 0x000003FF#32).toNat
  | .vram =>
    let o := (a &&& 0x0001FFFF#32).toNat
    if 0x18000 ≤ o then o - 0x8000 else o
  | .oam => (a &&& 0x000003FF#32).toNat
  | .rom => (a &&& 0x01FFFFFF#32).toNat
  | .sram => (a &&& 0x0000FFFF#32).toNat
  | .unmapped => 0

/-- The storage address of offset 0 of a region (notes/assumptions/11.md). -/
def Region.base : Region → Nat
  | .bios => 0x00000000
  | .ewram => 0x02000000
  | .iwram => 0x03000000
  | .io => 0x04000000
  | .palette => 0x05000000
  | .vram => 0x06000000
  | .oam => 0x07000000
  | .rom => 0x08000000
  | .sram => 0x0E000000
  | .unmapped => 0x10000000

/-- The boot-ROM lock boundary (`20_memory.md` R157). -/
def biosBoundary (s : State) : Nat :=
  match s.config.biosLockBoundary with
  | .loaded => s.bootLoaded
  | .fixed n => n

/-- Whether a region's storage backs offset `o`, whatever the lock (`20_memory.md` R156, R165, R171). -/
def backed (s : State) (r : Region) (o : Nat) : Bool :=
  match r with
  | .bios => decide (o < 0x4000)
  | .io => decide (o < 0x400)
  | .rom => decide (o < s.romSize)
  | .unmapped => false
  | .ewram | .iwram | .palette | .vram | .oam | .sram => true

/-- The storage address a byte read of `a` is served from; none is open bus (`20_memory.md` R156, R157, R165). -/
def readCell (s : State) (a : Word) : Option Nat :=
  let r := regionOf a
  let o := offsetIn r a
  if r = .bios ∧ s.biosLocked = true ∧ biosBoundary s ≤ o then none
  else if backed s r o then some (r.base + o)
  else none

/-- The storage address a byte write to `a` stores to; none is discarded (`20_memory.md` R156, R172, R173). -/
def writeCell (s : State) (a : Word) : Option Nat :=
  let r := regionOf a
  let o := offsetIn r a
  if r = .bios then none
  else if backed s r o then some (r.base + o)
  else none

end Sys2Proof.Machine
end

