-- ==== Sys2Proof/Machine/Ops.lean ====
section
/-!
DEFINITION. The named operations over the state: status words, registers, the program counter, the bus, the free
value, and taking an exception.
-/

namespace Sys2Proof.Machine

/-! ### Status words -/

/-- The word a status record is (`10_state.md` R52). -/
def Psr.toWord (p : Psr) : Word :=
  BitVec.ofBool p.n ++ BitVec.ofBool p.z ++ BitVec.ofBool p.c ++ BitVec.ofBool p.v ++ p.reserved ++
    BitVec.ofBool p.i ++ BitVec.ofBool p.f ++ BitVec.ofBool p.t ++ p.mode

/-- The record of a status word (`10_state.md` R52). -/
def Psr.ofWord (w : Word) : Psr where
  n := w.getLsbD 31
  z := w.getLsbD 30
  c := w.getLsbD 29
  v := w.getLsbD 28
  reserved := w.extractLsb' 8 20
  i := w.getLsbD 7
  f := w.getLsbD 6
  t := w.getLsbD 5
  mode := w.extractLsb' 0 5

/-- The banks of R13 and R14 (`10_state.md` R63). -/
inductive Bank where
  | usr
  | fiq
  | irq
  | svc
  | abt
  | und
  deriving DecidableEq, Repr

/-- The code of User mode (`10_state.md` R53). -/
def userMode : ModeBits := 0x10

/-- The code of FIQ mode (`10_state.md` R53). -/
def fiqMode : ModeBits := 0x11

/-- `bank13_14` (`10_state.md` R63): none for an invalid mode code. -/
def bankOf (m : ModeBits) : Option Bank :=
  if m = 0x10 then some .usr
  else if m = 0x11 then some .fiq
  else if m = 0x12 then some .irq
  else if m = 0x13 then some .svc
  else if m = 0x17 then some .abt
  else if m = 0x1B then some .und
  else if m = 0x1F then some .usr
  else none

/-- One of the seven valid mode codes (`10_state.md` R53). -/
def validMode (m : ModeBits) : Bool := (bankOf m).isSome

/-- `HasSpsr` (`42_arm_data_processing.md` R452). -/
def hasSpsr (m : ModeBits) : Bool :=
  match bankOf m with
  | some .fiq | some .irq | some .svc | some .abt | some .und => true
  | some .usr | none => false

/-- The word `getSavedStatusRegister` names, read (`10_state.md` R66). -/
def getSpsr (s : State) : Psr :=
  match bankOf s.cpsr.mode with
  | some .fiq => s.spsr.fiq
  | some .irq => s.spsr.irq
  | some .svc => s.spsr.svc
  | some .abt => s.spsr.abt
  | some .und => s.spsr.und
  | some .usr | none => s.spsr.dummy

/-- The word `getSavedStatusRegister` names, written (`10_state.md` R66). -/
def setSpsr (p : Psr) (s : State) : State :=
  match bankOf s.cpsr.mode with
  | some .fiq => { s with spsr := { s.spsr with fiq := p } }
  | some .irq => { s with spsr := { s.spsr with irq := p } }
  | some .svc => { s with spsr := { s.spsr with svc := p } }
  | some .abt => { s with spsr := { s.spsr with abt := p } }
  | some .und => { s with spsr := { s.spsr with und := p } }
  | some .usr | none => { s with spsr := { s.spsr with dummy := p } }

/-! ### Registers -/

/-- The physical register words (`10_state.md` R61). -/
inductive RegCell where
  | r0 | r1 | r2 | r3 | r4 | r5 | r6 | r7
  | r8usr | r9usr | r10usr | r11usr | r12usr
  | r8fiq | r9fiq | r10fiq | r11fiq | r12fiq
  | r13usr | r14usr | r13fiq | r14fiq | r13irq | r14irq | r13svc | r14svc | r13abt | r14abt | r13und | r14und
  | pc
  deriving DecidableEq, Repr

/-- The content of a register word. -/
def RegBank.read (b : RegBank) : RegCell → Word
  | .r0 => b.r0
  | .r1 => b.r1
  | .r2 => b.r2
  | .r3 => b.r3
  | .r4 => b.r4
  | .r5 => b.r5
  | .r6 => b.r6
  | .r7 => b.r7
  | .r8usr => b.r8usr
  | .r9usr => b.r9usr
  | .r10usr => b.r10usr
  | .r11usr => b.r11usr
  | .r12usr => b.r12usr
  | .r8fiq => b.r8fiq
  | .r9fiq => b.r9fiq
  | .r10fiq => b.r10fiq
  | .r11fiq => b.r11fiq
  | .r12fiq => b.r12fiq
  | .r13usr => b.r13usr
  | .r14usr => b.r14usr
  | .r13fiq => b.r13fiq
  | .r14fiq => b.r14fiq
  | .r13irq => b.r13irq
  | .r14irq => b.r14irq
  | .r13svc => b.r13svc
  | .r14svc => b.r14svc
  | .r13abt => b.r13abt
  | .r14abt => b.r14abt
  | .r13und => b.r13und
  | .r14und => b.r14und
  | .pc => b.pc

/-- Store into a register word. -/
def RegBank.write (b : RegBank) (c : RegCell) (v : Word) : RegBank :=
  match c with
  | .r0 => { b with r0 := v }
  | .r1 => { b with r1 := v }
  | .r2 => { b with r2 := v }
  | .r3 => { b with r3 := v }
  | .r4 => { b with r4 := v }
  | .r5 => { b with r5 := v }
  | .r6 => { b with r6 := v }
  | .r7 => { b with r7 := v }
  | .r8usr => { b with r8usr := v }
  | .r9usr => { b with r9usr := v }
  | .r10usr => { b with r10usr := v }
  | .r11usr => { b with r11usr := v }
  | .r12usr => { b with r12usr := v }
  | .r8fiq => { b with r8fiq := v }
  | .r9fiq => { b with r9fiq := v }
  | .r10fiq => { b with r10fiq := v }
  | .r11fiq => { b with r11fiq := v }
  | .r12fiq => { b with r12fiq := v }
  | .r13usr => { b with r13usr := v }
  | .r14usr => { b with r14usr := v }
  | .r13fiq => { b with r13fiq := v }
  | .r14fiq => { b with r14fiq := v }
  | .r13irq => { b with r13irq := v }
  | .r14irq => { b with r14irq := v }
  | .r13svc => { b with r13svc := v }
  | .r14svc => { b with r14svc := v }
  | .r13abt => { b with r13abt := v }
  | .r14abt => { b with r14abt := v }
  | .r13und => { b with r13und := v }
  | .r14und => { b with r14und := v }
  | .pc => { b with pc := v }

/-- The R13 of a bank (`10_state.md` R61). -/
def Bank.r13 : Bank → RegCell
  | .usr => .r13usr
  | .fiq => .r13fiq
  | .irq => .r13irq
  | .svc => .r13svc
  | .abt => .r13abt
  | .und => .r13und

/-- The R14 of a bank (`10_state.md` R61). -/
def Bank.r14 : Bank → RegCell
  | .usr => .r14usr
  | .fiq => .r14fiq
  | .irq => .r14irq
  | .svc => .r14svc
  | .abt => .r14abt
  | .und => .r14und

/-- `resolve` (`10_state.md` R62): the word index `i` names under mode `m`. -/
def resolve (m : ModeBits) (i : Nat) : Except FaultReason RegCell :=
  match i with
  | 0 => .ok .r0
  | 1 => .ok .r1
  | 2 => .ok .r2
  | 3 => .ok .r3
  | 4 => .ok .r4
  | 5 => .ok .r5
  | 6 => .ok .r6
  | 7 => .ok .r7
  | 8 => .ok (if m = fiqMode then .r8fiq else .r8usr)
  | 9 => .ok (if m = fiqMode then .r9fiq else .r9usr)
  | 10 => .ok (if m = fiqMode then .r10fiq else .r10usr)
  | 11 => .ok (if m = fiqMode then .r11fiq else .r11usr)
  | 12 => .ok (if m = fiqMode then .r12fiq else .r12usr)
  | 13 =>
    match bankOf m with
    | some b => .ok b.r13
    | none => .error (.invalidMode m)
  | 14 =>
    match bankOf m with
    | some b => .ok b.r14
    | none => .error (.invalidMode m)
  | 15 => .ok .pc
  | _ => .error (.invalidRegisterIndex i)

/-- `fault r` in the state `s`: the reason is recorded, and what was written so far stays (`40_pipeline.md` R353). -/
def stop (r : FaultReason) (s : State) : Fault := .stopped r { s with faulted := some r }

/-- `if b: fault r`, in the state `s`. -/
def failIf (b : Bool) (r : FaultReason) (s : State) : Except Fault Unit := if b then .error (stop r s) else .ok ()

/-- The word index `i` names under mode `m`, in a handler that has reached the state `s`. -/
def cellOf (m : ModeBits) (i : Reg) (s : State) : Except Fault RegCell :=
  match resolve m i.toNat with
  | .ok c => .ok c
  | .error r => .error (stop r s)

/-- `x[i]` read as under mode `m` (`00_scope.md` R16). -/
def readRegAs (m : ModeBits) (i : Reg) (s : State) : Except Fault Word := do
  let c ← cellOf m i s
  pure (s.regs.read c)

/-- `x[i]` (`00_scope.md` R16). -/
def readReg (i : Reg) (s : State) : Except Fault Word := readRegAs s.cpsr.mode i s

/-- `xu[i]` (`10_state.md` R68). -/
def readUserReg (i : Reg) (s : State) : Except Fault Word := readRegAs userMode i s

/-- The width in bytes of an instruction of the active encoding (`00_scope.md` R21). -/
def width (p : Psr) : Word := if p.t then 2 else 4

/-- The alignment of a program-counter write (`44_arm_branch.md` R556). -/
def alignPc (t : Bool) (v : Word) : Word := if t then v &&& 0xFFFFFFFE#32 else v &&& 0xFFFFFFFC#32

/-- `pc <- v` (`44_arm_branch.md` R556, `40_pipeline.md` R361): store the aligned value and request a flush. -/
def writePc (v : Word) (s : State) : State :=
  { s with regs := s.regs.write .pc (alignPc s.cpsr.t v), flushRequested := true }

/-- `x[i] <- v` as under mode `m`; index 15 is `pc <-` (`10_state.md` R69). -/
def writeRegAs (m : ModeBits) (i : Reg) (v : Word) (s : State) : Except Fault State :=
  if i = 15 then .ok (writePc v s)
  else do
    let c ← cellOf m i s
    pure { s with regs := s.regs.write c v }

/-- `x[i] <- v` (`10_state.md` R69). -/
def writeReg (i : Reg) (v : Word) (s : State) : Except Fault State := writeRegAs s.cpsr.mode i v s

/-- `xu[i] <- v` (`10_state.md` R68). -/
def writeUserReg (i : Reg) (v : Word) (s : State) : Except Fault State := writeRegAs userMode i v s

/-- A low register as an index (`49_thumb.md` R801). -/
def lowReg (i : LowReg) : Reg := 0#1 ++ i

/-- The value a store of R15 stores (`43_arm_single_transfer.md` R513, `48_arm_block_coproc_swi.md` R757). -/
def storedPc (s : State) : Word :=
  match s.config.pcReadExtra with
  | .zero => s.regs.pc
  | .four => s.regs.pc + 4

/-- `MUL_CARRY`: one draw (`41_shifter_alu.md` R422). -/
def draw (s : State) : Bool := Config.mulCarry s.draws

/-- The state after a draw. -/
def drawn (s : State) : State := { s with draws := s.draws + 1 }

/-! ### The bus -/

/-- One byte read (`20_memory.md` R156, R169, R170): the byte, and the state with the latch updated. -/
def readByte (a : Word) (s : State) : Byte × State :=
  match readCell s a with
  | some k => (s.mem.read k, { s with openBusLatch := s.mem.read k })
  | none => (s.openBusLatch, s)

/-- The inspection byte read (`20_memory.md` R206): the byte `readByte` answers, and no state. -/
def inspectByte (a : Word) (s : State) : Byte :=
  match readCell s a with
  | some k => s.mem.read k
  | none => s.openBusLatch

/-- One byte write (`20_memory.md` R172). -/
def writeByte (a : Word) (b : Byte) (s : State) : State :=
  match writeCell s a with
  | some k => { s with mem := s.mem.write k b }
  | none => s

/-- `a & ~3` (`20_memory.md` R180). -/
def alignWord (a : Word) : Word := a &&& 0xFFFFFFFC#32

/-- `a & ~1` (`20_memory.md` R180). -/
def alignHalf (a : Word) : Word := a &&& 0xFFFFFFFE#32

/-- The misalignment of a word address in bits, `8 * a[1:0]` (`20_memory.md` R181). -/
def wordSkew (a : Word) : Nat := 8 * (a.extractLsb' 0 2).toNat

/-- `read8` (`20_memory.md` R183). -/
def read8 (a : Word) (s : State) : Word × State :=
  let r := readByte a s
  (r.1.zeroExtend 32, r.2)

/-- `read16` (`20_memory.md` R182). -/
def read16 (a : Word) (s : State) : Word × State :=
  let base := alignHalf a
  let r0 := readByte base s
  let r1 := readByte (base + 1) r0.2
  let half : Half := r1.1 ++ r0.1
  ((half.zeroExtend 32).rotateRight (8 * (a.extractLsb' 0 1).toNat), r1.2)

/-- `read32` (`20_memory.md` R181). -/
def read32 (a : Word) (s : State) : Word × State :=
  let base := alignWord a
  let r0 := readByte base s
  let r1 := readByte (base + 1) r0.2
  let r2 := readByte (base + 2) r1.2
  let r3 := readByte (base + 3) r2.2
  let word : Word := r3.1 ++ r2.1 ++ r1.1 ++ r0.1
  (word.rotateRight (wordSkew a), r3.2)

/-- `write8` (`20_memory.md` R187). -/
def write8 (a v : Word) (s : State) : State := writeByte a (v.extractLsb' 0 8) s

/-- `write16` (`20_memory.md` R186). -/
def write16 (a v : Word) (s : State) : State :=
  let base := alignHalf a
  writeByte (base + 1) (v.extractLsb' 8 8) (writeByte base (v.extractLsb' 0 8) s)

/-- The word a store at `a` lays down (`20_memory.md` R185). -/
def storedWord (a v : Word) (s : State) : Word :=
  if s.config.misalignedStoreRotate then v.rotateLeft (wordSkew a) else v

/-- `write32` (`20_memory.md` R185). -/
def write32 (a v : Word) (s : State) : State :=
  let base := alignWord a
  let v' := storedWord a v s
  writeByte (base + 3) (v'.extractLsb' 24 8)
    (writeByte (base + 2) (v'.extractLsb' 16 8)
      (writeByte (base + 1) (v'.extractLsb' 8 8) (writeByte base (v'.extractLsb' 0 8) s)))

/-- `MemReadAligned` (`20_memory.md` R189). -/
def memReadAligned (a : Word) (s : State) : Word × State := read32 (alignWord a) s

/-- `MemWriteAligned` (`20_memory.md` R189). -/
def memWriteAligned (a v : Word) (s : State) : State := write32 (alignWord a) v s

/-- `Fetch32` (`20_memory.md` R190). -/
def fetch32 (a : Word) (s : State) : Word × State := read32 a s

/-- `Fetch16` (`20_memory.md` R190). -/
def fetch16 (a : Word) (s : State) : Half × State :=
  let r := read16 a s
  (r.1.extractLsb' 0 16, r.2)

/-! ### Exceptions -/

/-- The exceptions that have an entry (`60_exceptions.md` R901). The aborts are never raised (R909). -/
inductive Exception where
  | undefinedInstruction
  | softwareInterrupt
  | prefetchAbort
  | dataAbort
  | irq
  | fiq
  deriving DecidableEq, Repr

/-- The vector (`60_exceptions.md` R901). -/
def Exception.vector : Exception → Word
  | .undefinedInstruction => 0x00000004
  | .softwareInterrupt => 0x00000008
  | .prefetchAbort => 0x0000000C
  | .dataAbort => 0x00000010
  | .irq => 0x00000018
  | .fiq => 0x0000001C

/-- The bank of the mode entered (`60_exceptions.md` R901). -/
def Exception.bank : Exception → Bank
  | .undefinedInstruction => .und
  | .softwareInterrupt => .svc
  | .prefetchAbort => .abt
  | .dataAbort => .abt
  | .irq => .irq
  | .fiq => .fiq

/-- The mode entered (`60_exceptions.md` R901). -/
def Exception.mode : Exception → ModeBits
  | .undefinedInstruction => 0x1B
  | .softwareInterrupt => 0x13
  | .prefetchAbort => 0x17
  | .dataAbort => 0x17
  | .irq => 0x12
  | .fiq => 0x11

/-- R14 of the mode entered, from the address `a` and the width `w` of the instruction (`60_exceptions.md` R901). -/
def Exception.link (e : Exception) (a w : Word) : Word :=
  match e with
  | .undefinedInstruction => a + w
  | .softwareInterrupt => a + w
  | .prefetchAbort => a + 4
  | .dataAbort => a + 8
  | .irq => a + 4
  | .fiq => a + 4

/-- The address of the executing instruction, `PC - 2w` (`40_pipeline.md` R366). -/
def instrAddress (s : State) : Word := s.regs.pc - (width s.cpsr + width s.cpsr)

/-- Exception entry (`60_exceptions.md` R903), the one operation every exception takes. -/
def enterException (e : Exception) (s : State) : State :=
  let lr := e.link (instrAddress s) (width s.cpsr)
  let switched := { s with cpsr := { s.cpsr with mode := e.mode } }
  let saved := setSpsr s.cpsr switched
  let linked := { saved with regs := saved.regs.write e.bank.r14 lr }
  let masked :=
    { linked with cpsr := { linked.cpsr with t := false, i := true, f := linked.cpsr.f || e == .fiq } }
  writePc e.vector masked

/-- `RestoreCpsr`: the exception return's copy of the saved status word, all 32 bits (`42_arm_data_processing.md`
R452). -/
def restoreCpsr (s : State) : Except Fault State :=
  if hasSpsr s.cpsr.mode then .ok { s with cpsr := getSpsr s } else .error (stop .noSpsr s)

/-- `raise UndefinedInstruction` and `raise SoftwareInterrupt`: what EXC_POLICY says (`60_exceptions.md` R900). -/
def raise (e : Exception) (r : FaultReason) (s : State) : Except Fault State :=
  match s.config.excPolicy with
  | .noop => .ok s
  | .trap => .ok (enterException e s)
  | .fault => .error (stop r s)

/-- `raise UndefinedInstruction(instr)` (`60_exceptions.md` R900). -/
def raiseUndefined (s : State) : Except Fault State := raise .undefinedInstruction .undefinedInstruction s

/-- `raise SoftwareInterrupt(instr)` (`60_exceptions.md` R900, R902). -/
def raiseSoftwareInterrupt (s : State) : Except Fault State := raise .softwareInterrupt .softwareInterrupt s

/-! ### Answers -/

/-- The answer of a handler. -/
def answer : Except Fault State → Answer
  | .ok s => .next s
  | .error f => .fault f

/-- An ARM instruction: its handler if the condition passes, else nothing (`40_pipeline.md` R352, R368). -/
def whenPassed (c : Cond) (s : State) (handler : Except Fault State) : Answer :=
  if Cond.passed c s.cpsr then answer handler else .next s

end Sys2Proof.Machine
end

