-- ==== Sys2Proof/Machine/Operands.lean ====
section
/-!
DEFINITION. Operand forms: the rotated immediate, the shifts with their carry-out, operand 2 of data processing, the
offsets of the transfers, and the Thumb immediates (`41_shifter_alu.md` R401 to R414, `30_encoding.md` R280 to R284).
-/

namespace Sys2Proof.Machine

/-- A shifted or rotated operand and its carry-out (`41_shifter_alu.md` R400). -/
structure Shifted where
  value : Word
  carry : Bool
  deriving DecidableEq, Repr

/-- `ExpandImm` (`41_shifter_alu.md` R401). -/
def expandImm (imm8 : BitVec 8) (rot : BitVec 4) (c : Bool) : Shifted :=
  let value := (imm8.zeroExtend 32).rotateRight (2 * rot.toNat)
  { value := value, carry := if rot = 0 then c else value.getLsbD 31 }

/-- An arithmetic shift right by 32 or more: every bit, and the carry, is the sign (`41_shifter_alu.md` R405, R410). -/
def signFill (v : Word) : Shifted :=
  { value := if v.getLsbD 31 then 0xFFFFFFFF else 0, carry := v.getLsbD 31 }

/-- Rotate right with extend (`41_shifter_alu.md` R406). -/
def rrx (v : Word) (c : Bool) : Shifted :=
  { value := (BitVec.ofBool c ++ 0#31) ||| (v >>> 1), carry := v.getLsbD 0 }

/-- `ShiftImm` (`41_shifter_alu.md` R403 to R406). -/
def shiftImm (k : ShiftKind) (amount : BitVec 5) (v : Word) (c : Bool) : Shifted :=
  let n := amount.toNat
  match k with
  | .lsl => if n = 0 then { value := v, carry := c } else { value := v <<< n, carry := v.getLsbD (32 - n) }
  | .lsr => if n = 0 then { value := 0, carry := v.getLsbD 31 } else { value := v >>> n, carry := v.getLsbD (n - 1) }
  | .asr => if n = 0 then signFill v else { value := v.sshiftRight n, carry := v.getLsbD (n - 1) }
  | .ror => if n = 0 then rrx v c else { value := v.rotateRight n, carry := v.getLsbD (n - 1) }

/-- `ShiftReg` (`41_shifter_alu.md` R407 to R411), with the amount in a byte. -/
def shiftReg (k : ShiftKind) (amount : Byte) (v : Word) (c : Bool) : Shifted :=
  let s := amount.toNat
  if s = 0 then { value := v, carry := c }
  else
    match k with
    | .lsl =>
      if s ≤ 31 then { value := v <<< s, carry := v.getLsbD (32 - s) }
      else if s = 32 then { value := 0, carry := v.getLsbD 0 }
      else { value := 0, carry := false }
    | .lsr =>
      if s ≤ 31 then { value := v >>> s, carry := v.getLsbD (s - 1) }
      else if s = 32 then { value := 0, carry := v.getLsbD 31 }
      else { value := 0, carry := false }
    | .asr => if s ≤ 31 then { value := v.sshiftRight s, carry := v.getLsbD (s - 1) } else signFill v
    | .ror =>
      let r := s % 32
      if r = 0 then { value := v, carry := v.getLsbD 31 }
      else { value := v.rotateRight r, carry := v.getLsbD (r - 1) }

/-- The low byte of a register, a shift amount (`30_encoding.md` R281). -/
def lowByte (v : Word) : Byte := v.extractLsb' 0 8

/-- The second operand of a data-processing instruction, by its format (`41_shifter_alu.md` R413). -/
inductive Operand2 where
  /-- format A1 -/
  | imm (rot : BitVec 4) (imm8 : BitVec 8)
  /-- format A2 -/
  | immShift (amount : BitVec 5) (k : ShiftKind) (rm : Reg)
  /-- format A3 -/
  | regShift (rs : Reg) (k : ShiftKind) (rm : Reg)
  deriving DecidableEq, Repr

/-- `Operand2` (`41_shifter_alu.md` R413). -/
def operand2 (o : Operand2) (s : State) : Except Fault Shifted :=
  match o with
  | .imm rot imm8 => .ok (expandImm imm8 rot s.cpsr.c)
  | .immShift amount k rm => do
    let v ← readReg rm s
    pure (shiftImm k amount v s.cpsr.c)
  | .regShift rs k rm => do
    let v ← readReg rm s
    let a ← readReg rs s
    pure (shiftReg k (lowByte a) v s.cpsr.c)

/-- Whether the second operand has a register-specified shift amount and it or the fields `rd`, `rn` name R15
(`42_arm_data_processing.md` R453). -/
def regShiftNamesR15 (o : Operand2) (rd rn : Reg) : Bool :=
  match o with
  | .regShift rs _ rm => rd == 15 || rn == 15 || rm == 15 || rs == 15
  | .imm _ _ | .immShift _ _ _ => false

/-- The offset of a single data transfer (`43_arm_single_transfer.md` R501). -/
def sdtOffset (o : SdtOffset) (s : State) : Except Fault Word :=
  match o with
  | .imm offset12 => .ok (offset12.zeroExtend 32)
  | .reg amount k rm => do
    let v ← readReg rm s
    pure (shiftImm k amount v s.cpsr.c).value

/-- Whether the offset register is R15 (`43_arm_single_transfer.md` R504). -/
def sdtOffsetIsR15 (o : SdtOffset) : Bool :=
  match o with
  | .imm _ => false
  | .reg _ _ rm => rm == 15

/-- The offset of a halfword or signed transfer (`47_arm_swap_halfword.md` R710). -/
inductive HalfOffset where
  /-- format A12 -/
  | imm (hi lo : BitVec 4)
  /-- format A11 -/
  | reg (rm : Reg)
  deriving DecidableEq, Repr

/-- The value of a halfword offset (`47_arm_swap_halfword.md` R710). -/
def halfOffset (o : HalfOffset) (s : State) : Except Fault Word :=
  match o with
  | .imm hi lo => .ok ((hi ++ lo).zeroExtend 32)
  | .reg rm => readReg rm s

/-- Whether the halfword offset register is R15 (`47_arm_swap_halfword.md` R711). -/
def halfOffsetIsR15 (o : HalfOffset) : Bool :=
  match o with
  | .imm _ _ => false
  | .reg rm => rm == 15

/-- `offsetAddr` (`43_arm_single_transfer.md` R502): U = 1 adds, U = 0 subtracts. -/
def applyOffset (u : Bool) (base offset : Word) : Word := if u then base + offset else base - offset

/-- Post-indexed forms always write back (`43_arm_single_transfer.md` R503). -/
def writesBack (p w : Bool) : Bool := !p || w

/-- The transfer address (`43_arm_single_transfer.md` R502). -/
def transferAddress (p u : Bool) (base offset : Word) : Word := if p then applyOffset u base offset else base

/-- The branch offset (`30_encoding.md` R283). -/
def branchOffset (imm24 : BitVec 24) : Word := imm24.signExtend 32 <<< 2

/-- A high register of format T5: H ++ field (`49_thumb.md` R836). -/
def hiReg (h : Bool) (r : LowReg) : Reg := BitVec.ofBool h ++ r

/-- word8, a multiple of 4 (`30_encoding.md` R284). -/
def word8Offset (word8 : BitVec 8) : Word := word8.zeroExtend 32 <<< 2

/-- sword7, a multiple of 4 (`30_encoding.md` R284). -/
def sword7Offset (sword7 : BitVec 7) : Word := sword7.zeroExtend 32 <<< 2

/-- offset5 of a word transfer (`30_encoding.md` R284). -/
def off5Word (off5 : BitVec 5) : Word := off5.zeroExtend 32 <<< 2

/-- offset5 of a halfword transfer (`30_encoding.md` R284). -/
def off5Half (off5 : BitVec 5) : Word := off5.zeroExtend 32 <<< 1

/-- offset5 of a byte transfer (`30_encoding.md` R284). -/
def off5Byte (off5 : BitVec 5) : Word := off5.zeroExtend 32

/-- soffset8 of a conditional branch (`30_encoding.md` R284). -/
def soff8Offset (soff8 : BitVec 8) : Word := soff8.signExtend 32 <<< 1

/-- offset11 of a branch (`30_encoding.md` R284). -/
def off11Offset (off11 : BitVec 11) : Word := off11.signExtend 32 <<< 1

/-- offset11 of the first half of BL (`30_encoding.md` R284). -/
def blHighOffset (off11 : BitVec 11) : Word := off11.signExtend 32 <<< 12

/-- offset11 of the second half of BL (`30_encoding.md` R284). -/
def blLowOffset (off11 : BitVec 11) : Word := off11.zeroExtend 32 <<< 1

/-- The register list in ascending order (`48_arm_block_coproc_swi.md` R751). -/
def regList (list : BitVec 16) : List Reg :=
  ([0, 1, 2, 3, 4, 5, 6, 7, 8, 9, 10, 11, 12, 13, 14, 15] : List Reg).filter fun i => list.getLsbD i.toNat

end Sys2Proof.Machine
end

