-- ==== Sys2Proof/Machine/SingleTransfer.lean ====
section
/-!
DEFINITION. ARM single data transfer: LDR, LDRB, STR, STRB and the T forms (`43_arm_single_transfer.md` R500 to R521).
-/

namespace Sys2Proof.Machine

/-- `if wb: x[n] <- v`. -/
def writeBack (wb : Bool) (rn : Reg) (v : Word) (s : State) : Except Fault State :=
  if wb then writeReg rn v s else .ok s

/-- The UNPREDICTABLE cases of a single data transfer, in their order (`43_arm_single_transfer.md` R504). -/
def sdtCheck (byte p w : Bool) (rn rd : Reg) (off : SdtOffset) (s : State) : Except Fault Unit := do
  failIf (sdtOffsetIsR15 off) (.unpredictable .sdtOffsetR15) s
  failIf (writesBack p w && rn == 15) (.unpredictable .sdtWritebackR15) s
  failIf (writesBack p w && rn == rd) (.unpredictable .sdtWritebackRnIsRd) s
  failIf (byte && rd == 15) (.unpredictable .sdtByteR15) s

/-- The load half of `SingleDataTransfer` (`43_arm_single_transfer.md` R504, R510, R511, R514). -/
def singleLoad (byte p u w : Bool) (rn rd : Reg) (off : SdtOffset) (s : State) : Except Fault State := do
  sdtCheck byte p w rn rd off s
  let offset ← sdtOffset off s
  let base ← readReg rn s
  let addr := transferAddress p u base offset
  let data := if byte then read8 addr s else read32 addr s
  let s1 ← writeBack (writesBack p w) rn (applyOffset u base offset) data.2
  if rd = 15 then do
    failIf (addr.extractLsb' 0 2 != 0#2) (.unpredictable .ldrPcMisaligned) s1
    pure (writePc data.1 s1)
  else writeReg rd data.1 s1

/-- The store half of `SingleDataTransfer` (`43_arm_single_transfer.md` R504, R512, R513, R515). -/
def singleStore (byte p u w : Bool) (rn rd : Reg) (off : SdtOffset) (s : State) : Except Fault State := do
  sdtCheck byte p w rn rd off s
  let offset ← sdtOffset off s
  let base ← readReg rn s
  let addr := transferAddress p u base offset
  let v ← if rd = 15 then pure (storedPc s) else readReg rd s
  let s1 := if byte then write8 addr v s else write32 addr v s
  writeBack (writesBack p w) rn (applyOffset u base offset) s1

/-- LDR (`43_arm_single_transfer.md` R510, R511). -/
def execLdr (c : Cond) (p u w : Bool) (rn rd : Reg) (off : SdtOffset) (s : State) : Answer :=
  whenPassed c s (singleLoad false p u w rn rd off s)

/-- LDRB (`43_arm_single_transfer.md` R514). -/
def execLdrb (c : Cond) (p u w : Bool) (rn rd : Reg) (off : SdtOffset) (s : State) : Answer :=
  whenPassed c s (singleLoad true p u w rn rd off s)

/-- STR (`43_arm_single_transfer.md` R512, R513). -/
def execStr (c : Cond) (p u w : Bool) (rn rd : Reg) (off : SdtOffset) (s : State) : Answer :=
  whenPassed c s (singleStore false p u w rn rd off s)

/-- STRB (`43_arm_single_transfer.md` R515). -/
def execStrb (c : Cond) (p u w : Bool) (rn rd : Reg) (off : SdtOffset) (s : State) : Answer :=
  whenPassed c s (singleStore true p u w rn rd off s)

/-- LDRT: P = 0, W = 1, as LDR post-indexed (`43_arm_single_transfer.md` R505, R516). -/
def execLdrt (c : Cond) (u : Bool) (rn rd : Reg) (off : SdtOffset) (s : State) : Answer :=
  whenPassed c s (singleLoad false false u true rn rd off s)

/-- LDRBT: P = 0, W = 1, as LDRB post-indexed (`43_arm_single_transfer.md` R505, R517). -/
def execLdrbt (c : Cond) (u : Bool) (rn rd : Reg) (off : SdtOffset) (s : State) : Answer :=
  whenPassed c s (singleLoad true false u true rn rd off s)

/-- STRT: P = 0, W = 1, as STR post-indexed (`43_arm_single_transfer.md` R505, R518). -/
def execStrt (c : Cond) (u : Bool) (rn rd : Reg) (off : SdtOffset) (s : State) : Answer :=
  whenPassed c s (singleStore false false u true rn rd off s)

/-- STRBT: P = 0, W = 1, as STRB post-indexed (`43_arm_single_transfer.md` R505, R519). -/
def execStrbt (c : Cond) (u : Bool) (rn rd : Reg) (off : SdtOffset) (s : State) : Answer :=
  whenPassed c s (singleStore true false u true rn rd off s)

end Sys2Proof.Machine
end

