-- ==== Sys2Proof/Machine/BlockTransfer.lean ====
section
/-!
DEFINITION. ARM block data transfer: LDM and STM in the four addressing modes (`48_arm_block_coproc_swi.md` R750 to
R767), over the two transfer loops the Thumb multiple transfers also use.
-/

namespace Sys2Proof.Machine

/-- The four addressing modes (`48_arm_block_coproc_swi.md` R750). -/
inductive BlockMode where
  | ia
  | ib
  | da
  | db
  deriving DecidableEq, Repr

/-- `4k` for `k` listed registers. -/
def blockBytes (regs : List Reg) : Word := BitVec.ofNat 32 (4 * regs.length)

/-- The first address (`48_arm_block_coproc_swi.md` R751). -/
def blockStart (m : BlockMode) (base size : Word) : Word :=
  match m with
  | .ia => base
  | .ib => base + 4
  | .da => base - size + 4
  | .db => base - size

/-- The write-back value (`48_arm_block_coproc_swi.md` R751). -/
def blockNewBase (m : BlockMode) (base size : Word) : Word :=
  match m with
  | .ia | .ib => base + size
  | .da | .db => base - size

/-- The bank a block transfer reads and writes: the user bank or the current one (`48_arm_block_coproc_swi.md` R758). -/
def blockBank (userBank : Bool) (s : State) : ModeBits := if userBank then userMode else s.cpsr.mode

/-- The load loop over registers below R15: each at the next word (`48_arm_block_coproc_swi.md` R751, R753). Answers
the state and the next address. -/
def loadRegs (userBank : Bool) : List Reg → Word → State → Except Fault (Word × State)
  | [], addr, s => .ok (addr, s)
  | i :: rest, addr, s => do
    let v := memReadAligned addr s
    let s1 ← writeRegAs (blockBank userBank v.2) i v.1 v.2
    loadRegs userBank rest (addr + 4) s1

/-- The value the store loop stores for register `i` (`48_arm_block_coproc_swi.md` R753, R757). -/
def storedReg (userBank : Bool) (i : Reg) (s : State) : Except Fault Word :=
  if i = 15 then .ok (storedPc s) else readRegAs (blockBank userBank s) i s

/-- The store loop (`48_arm_block_coproc_swi.md` R751, R753). -/
def storeRegs (userBank : Bool) : List Reg → Word → State → Except Fault State
  | [], _, s => .ok s
  | i :: rest, addr, s => do
    let v ← storedReg userBank i s
    storeRegs userBank rest (addr + 4) (memWriteAligned addr v s)

/-- The checks common to LDM and STM, in their order (`48_arm_block_coproc_swi.md` R753). -/
def blockCheck (userBank w : Bool) (rn : Reg) (list : BitVec 16) (s : State) : Except Fault Unit := do
  failIf (rn == 15) (.unpredictable .blockBaseR15) s
  failIf (list == 0) (.unpredictable .emptyRegisterList) s
  failIf (userBank && w) (.unpredictable .userBankWriteback) s
  failIf (userBank && !hasSpsr s.cpsr.mode) (.unpredictable .userBankFromUserMode) s

/-- `BlockTransfer` with L = 1 (`48_arm_block_coproc_swi.md` R753, R754, R758). -/
def blockLoad (m : BlockMode) (sb w : Bool) (rn : Reg) (list : BitVec 16) (s : State) : Except Fault State := do
  let restore := sb && list.getLsbD 15
  let userBank := sb && !restore
  blockCheck userBank w rn list s
  failIf (w && list.getLsbD rn.toNat) (.unpredictable .ldmWritebackBaseInList) s
  let base ← readReg rn s
  let size := blockBytes (regList list)
  let r ← loadRegs userBank (regList (list &&& 0x7FFF#16)) (blockStart m base size) s
  if list.getLsbD 15 then do
    let v := memReadAligned r.1 r.2
    let s1 ← writeBack w rn (blockNewBase m base size) v.2
    let s2 ← if restore then restoreCpsr s1 else pure s1
    pure (writePc v.1 s2)
  else writeBack w rn (blockNewBase m base size) r.2

/-- `BlockTransfer` with L = 0 (`48_arm_block_coproc_swi.md` R753, R755, R757, R758). -/
def blockStore (m : BlockMode) (sb w : Bool) (rn : Reg) (list : BitVec 16) (s : State) : Except Fault State := do
  blockCheck sb w rn list s
  failIf (w && list.getLsbD rn.toNat && (regList list).head? != some rn) (.unpredictable .stmWritebackBaseNotFirst) s
  let base ← readReg rn s
  let size := blockBytes (regList list)
  let s1 ← storeRegs sb (regList list) (blockStart m base size) s
  writeBack w rn (blockNewBase m base size) s1

/-- LDMIA (`48_arm_block_coproc_swi.md` R760). -/
def execLdmia (c : Cond) (sb w : Bool) (rn : Reg) (list : BitVec 16) (s : State) : Answer :=
  whenPassed c s (blockLoad .ia sb w rn list s)

/-- LDMIB (`48_arm_block_coproc_swi.md` R761). -/
def execLdmib (c : Cond) (sb w : Bool) (rn : Reg) (list : BitVec 16) (s : State) : Answer :=
  whenPassed c s (blockLoad .ib sb w rn list s)

/-- LDMDA (`48_arm_block_coproc_swi.md` R762). -/
def execLdmda (c : Cond) (sb w : Bool) (rn : Reg) (list : BitVec 16) (s : State) : Answer :=
  whenPassed c s (blockLoad .da sb w rn list s)

/-- LDMDB (`48_arm_block_coproc_swi.md` R763). -/
def execLdmdb (c : Cond) (sb w : Bool) (rn : Reg) (list : BitVec 16) (s : State) : Answer :=
  whenPassed c s (blockLoad .db sb w rn list s)

/-- STMIA (`48_arm_block_coproc_swi.md` R764). -/
def execStmia (c : Cond) (sb w : Bool) (rn : Reg) (list : BitVec 16) (s : State) : Answer :=
  whenPassed c s (blockStore .ia sb w rn list s)

/-- STMIB (`48_arm_block_coproc_swi.md` R765). -/
def execStmib (c : Cond) (sb w : Bool) (rn : Reg) (list : BitVec 16) (s : State) : Answer :=
  whenPassed c s (blockStore .ib sb w rn list s)

/-- STMDA (`48_arm_block_coproc_swi.md` R766). -/
def execStmda (c : Cond) (sb w : Bool) (rn : Reg) (list : BitVec 16) (s : State) : Answer :=
  whenPassed c s (blockStore .da sb w rn list s)

/-- STMDB (`48_arm_block_coproc_swi.md` R767). -/
def execStmdb (c : Cond) (sb w : Bool) (rn : Reg) (list : BitVec 16) (s : State) : Answer :=
  whenPassed c s (blockStore .db sb w rn list s)

end Sys2Proof.Machine
end

