-- ==== Sys2Proof/Machine/Branch.lean ====
section
/-!
DEFINITION. ARM branch and branch-exchange: B, BL, BX (`44_arm_branch.md` R550 to R562).
-/

namespace Sys2Proof.Machine

/-- The branch-exchange of both encodings (`44_arm_branch.md` R560, `49_thumb.md` R839): bit 0 of the target selects
Thumb state; an ARM-state target with bit 1 set faults. -/
def branchExchange (t : Word) (s : State) : Except Fault State :=
  if t.getLsbD 0 then .ok (writePc t { s with cpsr := { s.cpsr with t := true } })
  else do
    failIf (t.getLsbD 1) .misalignedBxTarget s
    pure (writePc t { s with cpsr := { s.cpsr with t := false } })

/-- `Branch` (`44_arm_branch.md` R557). -/
def branch (link : Bool) (imm24 : BitVec 24) (s : State) : Except Fault State := do
  let target := s.regs.pc + branchOffset imm24
  let s1 ← if link then writeReg 14 (s.regs.pc - 4) s else pure s
  pure (writePc target s1)

/-- B (`44_arm_branch.md` R558). -/
def execB (c : Cond) (imm24 : BitVec 24) (s : State) : Answer :=
  whenPassed c s (branch false imm24 s)

/-- BL (`44_arm_branch.md` R559). -/
def execBl (c : Cond) (imm24 : BitVec 24) (s : State) : Answer :=
  whenPassed c s (branch true imm24 s)

/-- BX (`44_arm_branch.md` R560, R561). -/
def execBx (c : Cond) (rm : Reg) (s : State) : Answer :=
  whenPassed c s (do
    let t ← readReg rm s
    branchExchange t s)

end Sys2Proof.Machine
end

