-- ==== Sys2Proof/Machine/DataProcessing.lean ====
section
/-!
DEFINITION. ARM data processing: the skeleton (`42_arm_data_processing.md` R453) and one meaning per row of the table
(R460 to R475, formats A1, A2, A3).
-/

namespace Sys2Proof.Machine

/-- The logical opcodes (`42_arm_data_processing.md` R453). -/
def dpLogical : DpOp → Bool
  | .and | .eor | .tst | .teq | .orr | .mov | .bic | .mvn => true
  | .sub | .rsb | .add | .adc | .sbc | .rsc | .cmp | .cmn => false

/-- The comparison opcodes, which write no register (`42_arm_data_processing.md` R454). -/
def dpComparison : DpOp → Bool
  | .tst | .teq | .cmp | .cmn => true
  | .and | .eor | .sub | .rsb | .add | .adc | .sbc | .rsc | .orr | .mov | .bic | .mvn => false

/-- The opcodes that do not read Rn (`42_arm_data_processing.md` R473, R475). -/
def dpMove : DpOp → Bool
  | .mov | .mvn => true
  | .and | .eor | .sub | .rsb | .add | .adc | .sbc | .rsc | .tst | .teq | .cmp | .cmn | .orr | .bic => false

/-- `OP(a, sh, shc)` (`42_arm_data_processing.md` R460 to R475). For a logical opcode the carry is the shifter's and the
overflow is not used. -/
def dpCompute (op : DpOp) (a sh : Word) (shc cin : Bool) : Sum :=
  match op with
  | .and | .tst => { result := a &&& sh, carry := shc, overflow := false }
  | .eor | .teq => { result := a ^^^ sh, carry := shc, overflow := false }
  | .sub | .cmp => subtract a sh
  | .rsb => subtract sh a
  | .add | .cmn => addWithCarry a sh false
  | .adc => addWithCarry a sh cin
  | .sbc => addWithCarry a (~~~sh) cin
  | .rsc => addWithCarry sh (~~~a) cin
  | .orr => { result := a ||| sh, carry := shc, overflow := false }
  | .mov => { result := sh, carry := shc, overflow := false }
  | .bic => { result := a &&& ~~~sh, carry := shc, overflow := false }
  | .mvn => { result := ~~~sh, carry := shc, overflow := false }

/-- The flags an opcode sets: N Z C for a logical one, N Z C V for an arithmetic one (`42_arm_data_processing.md`
R451, R453). -/
def dpFlags (op : DpOp) (x : Sum) (p : Psr) : Psr :=
  if dpLogical op then p.setNZC x.result x.carry else p.setNZCV x

/-- What the skeleton does with the result (`42_arm_data_processing.md` R453 to R455). -/
def dpFinish (op : DpOp) (sf : Bool) (rd : Reg) (x : Sum) (s : State) : Except Fault State :=
  if dpComparison op then .ok { s with cpsr := dpFlags op x s.cpsr }
  else if rd = 15 then do
    let s1 ← if sf then restoreCpsr s else pure s
    pure (writePc x.result s1)
  else do
    let s1 ← writeReg rd x.result s
    pure (if sf then { s1 with cpsr := dpFlags op x s1.cpsr } else s1)

/-- The skeleton (`42_arm_data_processing.md` R453). -/
def dataProcessing (op : DpOp) (sf : Bool) (rn rd : Reg) (o : Operand2) (s : State) : Except Fault State := do
  failIf (regShiftNamesR15 o rd rn) (.unpredictable .dpRegShiftR15) s
  let sh ← operand2 o s
  let a ← if dpMove op then pure 0 else readReg rn s
  dpFinish op sf rd (dpCompute op a sh.value sh.carry s.cpsr.c) s


/-- AND, format A1 (`42_arm_data_processing.md` R460). -/
def execAndImm (c : Cond) (sf : Bool) (rn rd : Reg) (rot : BitVec 4) (imm8 : BitVec 8) (s : State) : Answer :=
  whenPassed c s (dataProcessing .and sf rn rd (.imm rot imm8) s)

/-- AND, format A2 (`42_arm_data_processing.md` R460). -/
def execAndRegImmShift (c : Cond) (sf : Bool) (rn rd : Reg) (amount : BitVec 5) (k : ShiftKind) (rm : Reg) (s : State) : Answer :=
  whenPassed c s (dataProcessing .and sf rn rd (.immShift amount k rm) s)

/-- AND, format A3 (`42_arm_data_processing.md` R460). -/
def execAndRegRegShift (c : Cond) (sf : Bool) (rn rd rs : Reg) (k : ShiftKind) (rm : Reg) (s : State) : Answer :=
  whenPassed c s (dataProcessing .and sf rn rd (.regShift rs k rm) s)

/-- EOR, format A1 (`42_arm_data_processing.md` R461). -/
def execEorImm (c : Cond) (sf : Bool) (rn rd : Reg) (rot : BitVec 4) (imm8 : BitVec 8) (s : State) : Answer :=
  whenPassed c s (dataProcessing .eor sf rn rd (.imm rot imm8) s)

/-- EOR, format A2 (`42_arm_data_processing.md` R461). -/
def execEorRegImmShift (c : Cond) (sf : Bool) (rn rd : Reg) (amount : BitVec 5) (k : ShiftKind) (rm : Reg) (s : State) : Answer :=
  whenPassed c s (dataProcessing .eor sf rn rd (.immShift amount k rm) s)

/-- EOR, format A3 (`42_arm_data_processing.md` R461). -/
def execEorRegRegShift (c : Cond) (sf : Bool) (rn rd rs : Reg) (k : ShiftKind) (rm : Reg) (s : State) : Answer :=
  whenPassed c s (dataProcessing .eor sf rn rd (.regShift rs k rm) s)

/-- SUB, format A1 (`42_arm_data_processing.md` R462). -/
def execSubImm (c : Cond) (sf : Bool) (rn rd : Reg) (rot : BitVec 4) (imm8 : BitVec 8) (s : State) : Answer :=
  whenPassed c s (dataProcessing .sub sf rn rd (.imm rot imm8) s)

/-- SUB, format A2 (`42_arm_data_processing.md` R462). -/
def execSubRegImmShift (c : Cond) (sf : Bool) (rn rd : Reg) (amount : BitVec 5) (k : ShiftKind) (rm : Reg) (s : State) : Answer :=
  whenPassed c s (dataProcessing .sub sf rn rd (.immShift amount k rm) s)

/-- SUB, format A3 (`42_arm_data_processing.md` R462). -/
def execSubRegRegShift (c : Cond) (sf : Bool) (rn rd rs : Reg) (k : ShiftKind) (rm : Reg) (s : State) : Answer :=
  whenPassed c s (dataProcessing .sub sf rn rd (.regShift rs k rm) s)

/-- RSB, format A1 (`42_arm_data_processing.md` R463). -/
def execRsbImm (c : Cond) (sf : Bool) (rn rd : Reg) (rot : BitVec 4) (imm8 : BitVec 8) (s : State) : Answer :=
  whenPassed c s (dataProcessing .rsb sf rn rd (.imm rot imm8) s)

/-- RSB, format A2 (`42_arm_data_processing.md` R463). -/
def execRsbRegImmShift (c : Cond) (sf : Bool) (rn rd : Reg) (amount : BitVec 5) (k : ShiftKind) (rm : Reg) (s : State) : Answer :=
  whenPassed c s (dataProcessing .rsb sf rn rd (.immShift amount k rm) s)

/-- RSB, format A3 (`42_arm_data_processing.md` R463). -/
def execRsbRegRegShift (c : Cond) (sf : Bool) (rn rd rs : Reg) (k : ShiftKind) (rm : Reg) (s : State) : Answer :=
  whenPassed c s (dataProcessing .rsb sf rn rd (.regShift rs k rm) s)

/-- ADD, format A1 (`42_arm_data_processing.md` R464). -/
def execAddImm (c : Cond) (sf : Bool) (rn rd : Reg) (rot : BitVec 4) (imm8 : BitVec 8) (s : State) : Answer :=
  whenPassed c s (dataProcessing .add sf rn rd (.imm rot imm8) s)

/-- ADD, format A2 (`42_arm_data_processing.md` R464). -/
def execAddRegImmShift (c : Cond) (sf : Bool) (rn rd : Reg) (amount : BitVec 5) (k : ShiftKind) (rm : Reg) (s : State) : Answer :=
  whenPassed c s (dataProcessing .add sf rn rd (.immShift amount k rm) s)

/-- ADD, format A3 (`42_arm_data_processing.md` R464). -/
def execAddRegRegShift (c : Cond) (sf : Bool) (rn rd rs : Reg) (k : ShiftKind) (rm : Reg) (s : State) : Answer :=
  whenPassed c s (dataProcessing .add sf rn rd (.regShift rs k rm) s)

/-- ADC, format A1 (`42_arm_data_processing.md` R465). -/
def execAdcImm (c : Cond) (sf : Bool) (rn rd : Reg) (rot : BitVec 4) (imm8 : BitVec 8) (s : State) : Answer :=
  whenPassed c s (dataProcessing .adc sf rn rd (.imm rot imm8) s)

/-- ADC, format A2 (`42_arm_data_processing.md` R465). -/
def execAdcRegImmShift (c : Cond) (sf : Bool) (rn rd : Reg) (amount : BitVec 5) (k : ShiftKind) (rm : Reg) (s : State) : Answer :=
  whenPassed c s (dataProcessing .adc sf rn rd (.immShift amount k rm) s)

/-- ADC, format A3 (`42_arm_data_processing.md` R465). -/
def execAdcRegRegShift (c : Cond) (sf : Bool) (rn rd rs : Reg) (k : ShiftKind) (rm : Reg) (s : State) : Answer :=
  whenPassed c s (dataProcessing .adc sf rn rd (.regShift rs k rm) s)

/-- SBC, format A1 (`42_arm_data_processing.md` R466). -/
def execSbcImm (c : Cond) (sf : Bool) (rn rd : Reg) (rot : BitVec 4) (imm8 : BitVec 8) (s : State) : Answer :=
  whenPassed c s (dataProcessing .sbc sf rn rd (.imm rot imm8) s)

/-- SBC, format A2 (`42_arm_data_processing.md` R466). -/
def execSbcRegImmShift (c : Cond) (sf : Bool) (rn rd : Reg) (amount : BitVec 5) (k : ShiftKind) (rm : Reg) (s : State) : Answer :=
  whenPassed c s (dataProcessing .sbc sf rn rd (.immShift amount k rm) s)

/-- SBC, format A3 (`42_arm_data_processing.md` R466). -/
def execSbcRegRegShift (c : Cond) (sf : Bool) (rn rd rs : Reg) (k : ShiftKind) (rm : Reg) (s : State) : Answer :=
  whenPassed c s (dataProcessing .sbc sf rn rd (.regShift rs k rm) s)

/-- RSC, format A1 (`42_arm_data_processing.md` R467). -/
def execRscImm (c : Cond) (sf : Bool) (rn rd : Reg) (rot : BitVec 4) (imm8 : BitVec 8) (s : State) : Answer :=
  whenPassed c s (dataProcessing .rsc sf rn rd (.imm rot imm8) s)

/-- RSC, format A2 (`42_arm_data_processing.md` R467). -/
def execRscRegImmShift (c : Cond) (sf : Bool) (rn rd : Reg) (amount : BitVec 5) (k : ShiftKind) (rm : Reg) (s : State) : Answer :=
  whenPassed c s (dataProcessing .rsc sf rn rd (.immShift amount k rm) s)

/-- RSC, format A3 (`42_arm_data_processing.md` R467). -/
def execRscRegRegShift (c : Cond) (sf : Bool) (rn rd rs : Reg) (k : ShiftKind) (rm : Reg) (s : State) : Answer :=
  whenPassed c s (dataProcessing .rsc sf rn rd (.regShift rs k rm) s)

/-- TST, format A1 (`42_arm_data_processing.md` R468). -/
def execTstImm (c : Cond) (rn : Reg) (rot : BitVec 4) (imm8 : BitVec 8) (s : State) : Answer :=
  whenPassed c s (dataProcessing .tst true rn 0 (.imm rot imm8) s)

/-- TST, format A2 (`42_arm_data_processing.md` R468). -/
def execTstRegImmShift (c : Cond) (rn : Reg) (amount : BitVec 5) (k : ShiftKind) (rm : Reg) (s : State) : Answer :=
  whenPassed c s (dataProcessing .tst true rn 0 (.immShift amount k rm) s)

/-- TST, format A3 (`42_arm_data_processing.md` R468). -/
def execTstRegRegShift (c : Cond) (rn rd rs : Reg) (k : ShiftKind) (rm : Reg) (s : State) : Answer :=
  whenPassed c s (dataProcessing .tst true rn rd (.regShift rs k rm) s)

/-- TEQ, format A1 (`42_arm_data_processing.md` R469). -/
def execTeqImm (c : Cond) (rn : Reg) (rot : BitVec 4) (imm8 : BitVec 8) (s : State) : Answer :=
  whenPassed c s (dataProcessing .teq true rn 0 (.imm rot imm8) s)

/-- TEQ, format A2 (`42_arm_data_processing.md` R469). -/
def execTeqRegImmShift (c : Cond) (rn : Reg) (amount : BitVec 5) (k : ShiftKind) (rm : Reg) (s : State) : Answer :=
  whenPassed c s (dataProcessing .teq true rn 0 (.immShift amount k rm) s)

/-- TEQ, format A3 (`42_arm_data_processing.md` R469). -/
def execTeqRegRegShift (c : Cond) (rn rd rs : Reg) (k : ShiftKind) (rm : Reg) (s : State) : Answer :=
  whenPassed c s (dataProcessing .teq true rn rd (.regShift rs k rm) s)

/-- CMP, format A1 (`42_arm_data_processing.md` R470). -/
def execCmpImm (c : Cond) (rn : Reg) (rot : BitVec 4) (imm8 : BitVec 8) (s : State) : Answer :=
  whenPassed c s (dataProcessing .cmp true rn 0 (.imm rot imm8) s)

/-- CMP, format A2 (`42_arm_data_processing.md` R470). -/
def execCmpRegImmShift (c : Cond) (rn : Reg) (amount : BitVec 5) (k : ShiftKind) (rm : Reg) (s : State) : Answer :=
  whenPassed c s (dataProcessing .cmp true rn 0 (.immShift amount k rm) s)

/-- CMP, format A3 (`42_arm_data_processing.md` R470). -/
def execCmpRegRegShift (c : Cond) (rn rd rs : Reg) (k : ShiftKind) (rm : Reg) (s : State) : Answer :=
  whenPassed c s (dataProcessing .cmp true rn rd (.regShift rs k rm) s)

/-- CMN, format A1 (`42_arm_data_processing.md` R471). -/
def execCmnImm (c : Cond) (rn : Reg) (rot : BitVec 4) (imm8 : BitVec 8) (s : State) : Answer :=
  whenPassed c s (dataProcessing .cmn true rn 0 (.imm rot imm8) s)

/-- CMN, format A2 (`42_arm_data_processing.md` R471). -/
def execCmnRegImmShift (c : Cond) (rn : Reg) (amount : BitVec 5) (k : ShiftKind) (rm : Reg) (s : State) : Answer :=
  whenPassed c s (dataProcessing .cmn true rn 0 (.immShift amount k rm) s)

/-- CMN, format A3 (`42_arm_data_processing.md` R471). -/
def execCmnRegRegShift (c : Cond) (rn rd rs : Reg) (k : ShiftKind) (rm : Reg) (s : State) : Answer :=
  whenPassed c s (dataProcessing .cmn true rn rd (.regShift rs k rm) s)

/-- ORR, format A1 (`42_arm_data_processing.md` R472). -/
def execOrrImm (c : Cond) (sf : Bool) (rn rd : Reg) (rot : BitVec 4) (imm8 : BitVec 8) (s : State) : Answer :=
  whenPassed c s (dataProcessing .orr sf rn rd (.imm rot imm8) s)

/-- ORR, format A2 (`42_arm_data_processing.md` R472). -/
def execOrrRegImmShift (c : Cond) (sf : Bool) (rn rd : Reg) (amount : BitVec 5) (k : ShiftKind) (rm : Reg) (s : State) : Answer :=
  whenPassed c s (dataProcessing .orr sf rn rd (.immShift amount k rm) s)

/-- ORR, format A3 (`42_arm_data_processing.md` R472). -/
def execOrrRegRegShift (c : Cond) (sf : Bool) (rn rd rs : Reg) (k : ShiftKind) (rm : Reg) (s : State) : Answer :=
  whenPassed c s (dataProcessing .orr sf rn rd (.regShift rs k rm) s)

/-- MOV, format A1 (`42_arm_data_processing.md` R473). -/
def execMovImm (c : Cond) (sf : Bool) (rd : Reg) (rot : BitVec 4) (imm8 : BitVec 8) (s : State) : Answer :=
  whenPassed c s (dataProcessing .mov sf 0 rd (.imm rot imm8) s)

/-- MOV, format A2 (`42_arm_data_processing.md` R473). -/
def execMovRegImmShift (c : Cond) (sf : Bool) (rd : Reg) (amount : BitVec 5) (k : ShiftKind) (rm : Reg) (s : State) : Answer :=
  whenPassed c s (dataProcessing .mov sf 0 rd (.immShift amount k rm) s)

/-- MOV, format A3 (`42_arm_data_processing.md` R473). -/
def execMovRegRegShift (c : Cond) (sf : Bool) (rn rd rs : Reg) (k : ShiftKind) (rm : Reg) (s : State) : Answer :=
  whenPassed c s (dataProcessing .mov sf rn rd (.regShift rs k rm) s)

/-- BIC, format A1 (`42_arm_data_processing.md` R474). -/
def execBicImm (c : Cond) (sf : Bool) (rn rd : Reg) (rot : BitVec 4) (imm8 : BitVec 8) (s : State) : Answer :=
  whenPassed c s (dataProcessing .bic sf rn rd (.imm rot imm8) s)

/-- BIC, format A2 (`42_arm_data_processing.md` R474). -/
def execBicRegImmShift (c : Cond) (sf : Bool) (rn rd : Reg) (amount : BitVec 5) (k : ShiftKind) (rm : Reg) (s : State) : Answer :=
  whenPassed c s (dataProcessing .bic sf rn rd (.immShift amount k rm) s)

/-- BIC, format A3 (`42_arm_data_processing.md` R474). -/
def execBicRegRegShift (c : Cond) (sf : Bool) (rn rd rs : Reg) (k : ShiftKind) (rm : Reg) (s : State) : Answer :=
  whenPassed c s (dataProcessing .bic sf rn rd (.regShift rs k rm) s)

/-- MVN, format A1 (`42_arm_data_processing.md` R475). -/
def execMvnImm (c : Cond) (sf : Bool) (rd : Reg) (rot : BitVec 4) (imm8 : BitVec 8) (s : State) : Answer :=
  whenPassed c s (dataProcessing .mvn sf 0 rd (.imm rot imm8) s)

/-- MVN, format A2 (`42_arm_data_processing.md` R475). -/
def execMvnRegImmShift (c : Cond) (sf : Bool) (rd : Reg) (amount : BitVec 5) (k : ShiftKind) (rm : Reg) (s : State) : Answer :=
  whenPassed c s (dataProcessing .mvn sf 0 rd (.immShift amount k rm) s)

/-- MVN, format A3 (`42_arm_data_processing.md` R475). -/
def execMvnRegRegShift (c : Cond) (sf : Bool) (rn rd rs : Reg) (k : ShiftKind) (rm : Reg) (s : State) : Answer :=
  whenPassed c s (dataProcessing .mvn sf rn rd (.regShift rs k rm) s)

end Sys2Proof.Machine
end

