-- ==== Sys2Proof/Machine/Multiply.lean ====
section
/-!
DEFINITION. ARM multiply and multiply long (`46_arm_multiply.md` R650 to R659, `41_shifter_alu.md` R421, R422).
-/

namespace Sys2Proof.Machine

/-- The flags of a 32-bit multiply: N and Z of the result, C a draw, V unchanged (`41_shifter_alu.md` R422). -/
def mulFlags (r : Word) (s : State) : State :=
  drawn { s with cpsr := { s.cpsr.setNZ r with c := draw s } }

/-- `Multiply` (`46_arm_multiply.md` R651). `acc` is the accumulator register of MLA. -/
def multiply (acc : Option Reg) (sf : Bool) (rd rs rm : Reg) (s : State) : Except Fault State := do
  failIf (rd == 15 || rs == 15 || rm == 15 || acc == some 15) (.unpredictable .mulR15) s
  failIf (rd == rm) (.unpredictable .mulRdIsRm) s
  let a ← readReg rm s
  let b ← readReg rs s
  let n ← match acc with
    | some rn => readReg rn s
    | none => pure 0
  let r := a * b + n
  let s1 ← writeReg rd r s
  pure (if sf then mulFlags r s1 else s1)

/-- The 64-bit product (`41_shifter_alu.md` R421). -/
def longProduct (signed : Bool) (a b : Word) : BitVec 64 :=
  if signed then a.signExtend 64 * b.signExtend 64 else a.zeroExtend 64 * b.zeroExtend 64

/-- The flags of a long multiply: N and Z of the 64-bit result, C and V draws (`41_shifter_alu.md` R422). -/
def mullFlags (p : BitVec 64) (s : State) : State :=
  let s1 := { s with cpsr := { s.cpsr with n := p.msb, z := p == 0 } }
  let s2 := drawn { s1 with cpsr := { s1.cpsr with c := draw s1 } }
  drawn { s2 with cpsr := { s2.cpsr with v := draw s2 } }

/-- `MultiplyLong` (`46_arm_multiply.md` R652). -/
def multiplyLong (signed acc sf : Bool) (rdHi rdLo rs rm : Reg) (s : State) : Except Fault State := do
  failIf (rdHi == 15 || rdLo == 15 || rs == 15 || rm == 15) (.unpredictable .mullR15) s
  failIf (rdHi == rdLo || rdHi == rm || rdLo == rm) (.unpredictable .mullRegisterClash) s
  let a ← readReg rm s
  let b ← readReg rs s
  let hi ← if acc then readReg rdHi s else pure 0
  let lo ← if acc then readReg rdLo s else pure 0
  let p := longProduct signed a b + (hi ++ lo)
  let s1 ← writeReg rdLo (p.extractLsb' 0 32) s
  let s2 ← writeReg rdHi (p.extractLsb' 32 32) s1
  pure (if sf then mullFlags p s2 else s2)

/-- MUL (`46_arm_multiply.md` R653). -/
def execMul (c : Cond) (sf : Bool) (rd rs rm : Reg) (s : State) : Answer :=
  whenPassed c s (multiply none sf rd rs rm s)

/-- MLA (`46_arm_multiply.md` R654). -/
def execMla (c : Cond) (sf : Bool) (rd rn rs rm : Reg) (s : State) : Answer :=
  whenPassed c s (multiply (some rn) sf rd rs rm s)

/-- UMULL (`46_arm_multiply.md` R655). -/
def execUmull (c : Cond) (sf : Bool) (rdHi rdLo rs rm : Reg) (s : State) : Answer :=
  whenPassed c s (multiplyLong false false sf rdHi rdLo rs rm s)

/-- UMLAL (`46_arm_multiply.md` R656). -/
def execUmlal (c : Cond) (sf : Bool) (rdHi rdLo rs rm : Reg) (s : State) : Answer :=
  whenPassed c s (multiplyLong false true sf rdHi rdLo rs rm s)

/-- SMULL (`46_arm_multiply.md` R657). -/
def execSmull (c : Cond) (sf : Bool) (rdHi rdLo rs rm : Reg) (s : State) : Answer :=
  whenPassed c s (multiplyLong true false sf rdHi rdLo rs rm s)

/-- SMLAL (`46_arm_multiply.md` R658). -/
def execSmlal (c : Cond) (sf : Bool) (rdHi rdLo rs rm : Reg) (s : State) : Answer :=
  whenPassed c s (multiplyLong true true sf rdHi rdLo rs rm s)

end Sys2Proof.Machine
end

