-- ==== Sys2Proof/Machine/PsrTransfer.lean ====
section
/-!
DEFINITION. ARM status-register transfer: MRS and MSR (`45_arm_psr_transfer.md` R600 to R611).
-/

namespace Sys2Proof.Machine

/-- The byte mask of the field-mask bits: c, x, s, f from bit 0 up (`45_arm_psr_transfer.md` R603). -/
def byteMask (mask : BitVec 4) : Word :=
  let byte (b : Bool) : Byte := if b then 0xFF else 0x00
  byte (mask.getLsbD 3) ++ byte (mask.getLsbD 2) ++ byte (mask.getLsbD 1) ++ byte (mask.getLsbD 0)

/-- A masked write of a status word. -/
def maskedPsr (old : Psr) (operand m : Word) : Psr := Psr.ofWord ((old.toWord &&& ~~~m) ||| (operand &&& m))

/-- The byte mask of a CPSR write: from User mode the flags byte alone (`45_arm_psr_transfer.md` R604). -/
def cpsrMask (mask : BitVec 4) (s : State) : Word :=
  if s.cpsr.mode = userMode then byteMask mask &&& 0xFF000000#32 else byteMask mask

/-- `MSR` with its operand resolved (`45_arm_psr_transfer.md` R605, R606). -/
def moveToPsr (r : Bool) (mask : BitVec 4) (operand : Word) (s : State) : Except Fault State :=
  if r then .ok (setSpsr (maskedPsr (getSpsr s) operand (byteMask mask)) s)
  else do
    let new := maskedPsr s.cpsr operand (cpsrMask mask s)
    failIf (new.t != s.cpsr.t) .tBitWrite s
    pure { s with cpsr := new }

/-- `MRS` (`45_arm_psr_transfer.md` R601). -/
def moveFromPsr (r : Bool) (rd : Reg) (s : State) : Except Fault State := do
  failIf (rd == 15) (.unpredictable .mrsR15) s
  writeReg rd (if r then (getSpsr s).toWord else s.cpsr.toWord) s

/-- MRS (`45_arm_psr_transfer.md` R601). -/
def execMrs (c : Cond) (r : Bool) (rd : Reg) (s : State) : Answer :=
  whenPassed c s (moveFromPsr r rd s)

/-- MSR, register form (`45_arm_psr_transfer.md` R602, R609). -/
def execMsrReg (c : Cond) (r : Bool) (mask : BitVec 4) (rm : Reg) (s : State) : Answer :=
  whenPassed c s (do
    failIf (rm == 15) (.unpredictable .msrR15) s
    let operand ← readReg rm s
    moveToPsr r mask operand s)

/-- MSR, immediate form (`45_arm_psr_transfer.md` R602, R610). -/
def execMsrImm (c : Cond) (r : Bool) (mask rot : BitVec 4) (imm8 : BitVec 8) (s : State) : Answer :=
  whenPassed c s (moveToPsr r mask (expandImm imm8 rot s.cpsr.c).value s)

end Sys2Proof.Machine
end

