-- ==== Sys2Proof/Machine/SwapHalfword.lean ====
section
/-!
DEFINITION. ARM single data swap, and halfword and signed transfers (`47_arm_swap_halfword.md` R700 to R717).
-/

namespace Sys2Proof.Machine

/-- `Swap` (`47_arm_swap_halfword.md` R700). -/
def swap (byte : Bool) (rn rd rm : Reg) (s : State) : Except Fault State := do
  failIf (rn == 15 || rd == 15 || rm == 15) (.unpredictable .swpR15) s
  failIf (rn == rm || rn == rd) (.unpredictable .swpBaseClash) s
  let addr ← readReg rn s
  let v ← readReg rm s
  let t := if byte then read8 addr s else read32 addr s
  let s1 := if byte then write8 addr v t.2 else write32 addr v t.2
  writeReg rd t.1 s1

/-- SWP (`47_arm_swap_halfword.md` R701). -/
def execSwp (c : Cond) (rn rd rm : Reg) (s : State) : Answer :=
  whenPassed c s (swap false rn rd rm s)

/-- SWPB (`47_arm_swap_halfword.md` R702). -/
def execSwpb (c : Cond) (rn rd rm : Reg) (s : State) : Answer :=
  whenPassed c s (swap true rn rd rm s)

/-- The loads of the halfword category (`47_arm_swap_halfword.md` R710). -/
inductive HalfLoad where
  | unsignedHalf
  | signedByte
  | signedHalf
  deriving DecidableEq, Repr

/-- What a load of the halfword category loads (`47_arm_swap_halfword.md` R711, R713, R715, R716). -/
def halfLoad (k : HalfLoad) (a : Word) (s : State) : Word × State :=
  let signedByte :=
    let r := read8 a s
    ((r.1.extractLsb' 0 8).signExtend 32, r.2)
  match k with
  | .unsignedHalf => read16 a s
  | .signedByte => signedByte
  | .signedHalf =>
    if a.getLsbD 0 then signedByte
    else
      let r := read16 a s
      ((r.1.extractLsb' 0 16).signExtend 32, r.2)

/-- The UNPREDICTABLE cases after SignedStore, in their order (`47_arm_swap_halfword.md` R711). -/
def halfCheck (p w : Bool) (rn rd : Reg) (off : HalfOffset) (s : State) : Except Fault Unit := do
  failIf (!p && w) (.unpredictable .halfwordPostWriteback) s
  failIf (rd == 15) (.unpredictable .halfwordR15) s
  failIf (halfOffsetIsR15 off) (.unpredictable .halfwordOffsetR15) s
  failIf (writesBack p w && rn == 15) (.unpredictable .halfwordWritebackR15) s
  failIf (writesBack p w && rn == rd) (.unpredictable .halfwordWritebackRnIsRd) s

/-- The load half of `HalfwordTransfer` (`47_arm_swap_halfword.md` R711). -/
def halfwordLoad (k : HalfLoad) (p u w : Bool) (rn rd : Reg) (off : HalfOffset) (s : State) : Except Fault State := do
  halfCheck p w rn rd off s
  let offset ← halfOffset off s
  let base ← readReg rn s
  let data := halfLoad k (transferAddress p u base offset) s
  let s1 ← writeBack (writesBack p w) rn (applyOffset u base offset) data.2
  writeReg rd data.1 s1

/-- The store half of `HalfwordTransfer` (`47_arm_swap_halfword.md` R711). -/
def halfwordStore (p u w : Bool) (rn rd : Reg) (off : HalfOffset) (s : State) : Except Fault State := do
  halfCheck p w rn rd off s
  let offset ← halfOffset off s
  let base ← readReg rn s
  let v ← readReg rd s
  let s1 := write16 (transferAddress p u base offset) v s
  writeBack (writesBack p w) rn (applyOffset u base offset) s1

/-- STRH, immediate offset (`47_arm_swap_halfword.md` R714). -/
def execStrhImm (c : Cond) (p u w : Bool) (rn rd : Reg) (immHi immLo : BitVec 4) (s : State) : Answer :=
  whenPassed c s (halfwordStore p u w rn rd (.imm immHi immLo) s)

/-- STRH, register offset (`47_arm_swap_halfword.md` R714). -/
def execStrhReg (c : Cond) (p u w : Bool) (rn rd rm : Reg) (s : State) : Answer :=
  whenPassed c s (halfwordStore p u w rn rd (.reg rm) s)

/-- LDRH, immediate offset (`47_arm_swap_halfword.md` R713). -/
def execLdrhImm (c : Cond) (p u w : Bool) (rn rd : Reg) (immHi immLo : BitVec 4) (s : State) : Answer :=
  whenPassed c s (halfwordLoad .unsignedHalf p u w rn rd (.imm immHi immLo) s)

/-- LDRH, register offset (`47_arm_swap_halfword.md` R713). -/
def execLdrhReg (c : Cond) (p u w : Bool) (rn rd rm : Reg) (s : State) : Answer :=
  whenPassed c s (halfwordLoad .unsignedHalf p u w rn rd (.reg rm) s)

/-- LDRSB, immediate offset (`47_arm_swap_halfword.md` R715). -/
def execLdrsbImm (c : Cond) (p u w : Bool) (rn rd : Reg) (immHi immLo : BitVec 4) (s : State) : Answer :=
  whenPassed c s (halfwordLoad .signedByte p u w rn rd (.imm immHi immLo) s)

/-- LDRSB, register offset (`47_arm_swap_halfword.md` R715). -/
def execLdrsbReg (c : Cond) (p u w : Bool) (rn rd rm : Reg) (s : State) : Answer :=
  whenPassed c s (halfwordLoad .signedByte p u w rn rd (.reg rm) s)

/-- LDRSH, immediate offset (`47_arm_swap_halfword.md` R716). -/
def execLdrshImm (c : Cond) (p u w : Bool) (rn rd : Reg) (immHi immLo : BitVec 4) (s : State) : Answer :=
  whenPassed c s (halfwordLoad .signedHalf p u w rn rd (.imm immHi immLo) s)

/-- LDRSH, register offset (`47_arm_swap_halfword.md` R716). -/
def execLdrshReg (c : Cond) (p u w : Bool) (rn rd rm : Reg) (s : State) : Answer :=
  whenPassed c s (halfwordLoad .signedHalf p u w rn rd (.reg rm) s)

/-- The signed-store space: the first check of `HalfwordTransfer` faults whatever the operands
(`47_arm_swap_halfword.md` R711, R717). -/
def execHalfwordSignedStore (c : Cond) (_p _u _i _w : Bool) (_rn _rd : Reg) (_hi : BitVec 4) (_h : Bool)
    (_lo : BitVec 4) (s : State) : Answer :=
  whenPassed c s (.error (stop (.unpredictable .signedStore) s))

end Sys2Proof.Machine
end

