-- ==== Sys2Proof/Machine/System.lean ====
section
/-!
DEFINITION. ARM coprocessor instructions, software interrupt and undefined (`48_arm_block_coproc_swi.md` R770 to R790).
No coprocessor exists, so no operand of theirs is read.
-/

namespace Sys2Proof.Machine

/-- The undefined row 8 (`48_arm_block_coproc_swi.md` R790). -/
def execUndefinedRow8 (c : Cond) (_upper : BitVec 20) (_lower : BitVec 4) (s : State) : Answer :=
  whenPassed c s (raiseUndefined s)

/-- The LDC and STC space (`48_arm_block_coproc_swi.md` R774). -/
def execLdcStcUndefined (c : Cond) (_p _u _n _w _l : Bool) (_rn : Reg) (_crd _cp : BitVec 4) (_off : BitVec 8)
    (s : State) : Answer :=
  whenPassed c s (raiseUndefined s)

/-- CDP (`48_arm_block_coproc_swi.md` R771). -/
def execCdp (c : Cond) (_op1 _crn _crd _cp : BitVec 4) (_op2 : BitVec 3) (_crm : BitVec 4) (s : State) : Answer :=
  whenPassed c s (raiseUndefined s)

/-- MCR (`48_arm_block_coproc_swi.md` R772). -/
def execMcr (c : Cond) (_op1 : BitVec 3) (_crn : BitVec 4) (_rd : Reg) (_cp : BitVec 4) (_op2 : BitVec 3)
    (_crm : BitVec 4) (s : State) : Answer :=
  whenPassed c s (raiseUndefined s)

/-- MRC: Rd is not written (`48_arm_block_coproc_swi.md` R773). -/
def execMrc (c : Cond) (_op1 : BitVec 3) (_crn : BitVec 4) (_rd : Reg) (_cp : BitVec 4) (_op2 : BitVec 3)
    (_crm : BitVec 4) (s : State) : Answer :=
  whenPassed c s (raiseUndefined s)

/-- SWI: the comment is not read (`48_arm_block_coproc_swi.md` R780). -/
def execSwi (c : Cond) (_comment : BitVec 24) (s : State) : Answer :=
  whenPassed c s (raiseSoftwareInterrupt s)

end Sys2Proof.Machine
end

