-- ==== Sys2Proof/Machine/ThumbAlu.lean ====
section
/-!
DEFINITION. Thumb arithmetic and logic: formats T1 to T5 but BX, T12 and T13 (`49_thumb.md` R804 to R838, R862 to R865).
-/

namespace Sys2Proof.Machine

/-- The flags a Thumb result writes (`49_thumb.md` R804, R808, R814, R819). -/
inductive FlagWrite where
  /-- no flag -/
  | none
  /-- `SetNZ`: C and V unchanged -/
  | nz
  /-- `SetNZC`: V unchanged -/
  | nzc
  /-- `SetNZCV` -/
  | nzcv
  deriving DecidableEq, Repr

/-- The status word with the flags of a result written (`42_arm_data_processing.md` R451). -/
def FlagWrite.apply (f : FlagWrite) (x : Sum) (p : Psr) : Psr :=
  match f with
  | .none => p
  | .nz => p.setNZ x.result
  | .nzc => p.setNZC x.result x.carry
  | .nzcv => p.setNZCV x

/-- A result that only carries a value, for the operations that leave C and V alone. -/
def plain (v : Word) : Sum := { result := v, carry := false, overflow := false }

/-- A shifter result as a result: no overflow is used (`49_thumb.md` R804, R822). -/
def shifted (x : Shifted) : Sum := { result := x.value, carry := x.carry, overflow := false }

/-- Write a result to a low register, then the flags (`49_thumb.md` R804, R808, R814, R819). -/
def lowResult (f : FlagWrite) (rd : LowReg) (x : Sum) (s : State) : Except Fault State := do
  let s1 ← writeReg (lowReg rd) x.result s
  pure { s1 with cpsr := f.apply x s1.cpsr }

/-- An operation of one low source register `rs` with its result in `rd` (formats T1 and T2 with imm3). -/
def lowUnary (f : FlagWrite) (rs rd : LowReg) (op : Word → Sum) (s : State) : Except Fault State := do
  let a ← readReg (lowReg rs) s
  lowResult f rd (op a) s

/-- An operation on `x[ra]` and `x[rb]` with its result in `rd` (formats T2 and T4). -/
def lowBinary (f : FlagWrite) (ra rb rd : LowReg) (op : Word → Word → Sum) (s : State) : Except Fault State := do
  let a ← readReg (lowReg ra) s
  let b ← readReg (lowReg rb) s
  lowResult f rd (op a b) s

/-- A comparison of `x[ra]` and `x[rb]`: flags only (`49_thumb.md` R819). -/
def lowCompare (f : FlagWrite) (ra rb : LowReg) (op : Word → Word → Sum) (s : State) : Except Fault State := do
  let a ← readReg (lowReg ra) s
  let b ← readReg (lowReg rb) s
  pure { s with cpsr := f.apply (op a b) s.cpsr }

/-- The Thumb multiply (`49_thumb.md` R833). -/
def lowMultiply (rs rd : LowReg) (s : State) : Except Fault State := do
  failIf (rd == rs) (.unpredictable .thumbMulRdIsRm) s
  let a ← readReg (lowReg rs) s
  let b ← readReg (lowReg rd) s
  let s1 ← writeReg (lowReg rd) (a * b) s
  pure (mulFlags (a * b) s1)

/-- The fault of the high-register operations on two low registers (`49_thumb.md` R836 to R838). -/
def hiCheck (h1 h2 : Bool) (s : State) : Except Fault Unit :=
  failIf (!h1 && !h2) (.unpredictable .hiRegLowOperands) s

/-- ADD Rd, Rs, Rn: format T2 (`49_thumb.md` R810). -/
def execTAddReg (rn rs rd : LowReg) (s : State) : Answer :=
  answer (lowBinary .nzcv rs rn rd (fun a b => addWithCarry a b false) s)

/-- SUB Rd, Rs, Rn: format T2 (`49_thumb.md` R811). -/
def execTSubReg (rn rs rd : LowReg) (s : State) : Answer :=
  answer (lowBinary .nzcv rs rn rd subtract s)

/-- ADD Rd, Rs, #imm3: format T2 (`49_thumb.md` R812). -/
def execTAddImm3 (imm3 : BitVec 3) (rs rd : LowReg) (s : State) : Answer :=
  answer (lowUnary .nzcv rs rd (fun a => addWithCarry a (imm3.zeroExtend 32) false) s)

/-- SUB Rd, Rs, #imm3: format T2 (`49_thumb.md` R813). -/
def execTSubImm3 (imm3 : BitVec 3) (rs rd : LowReg) (s : State) : Answer :=
  answer (lowUnary .nzcv rs rd (fun a => subtract a (imm3.zeroExtend 32)) s)

/-- LSL Rd, Rs, #offset5: format T1 (`49_thumb.md` R805). -/
def execTLslImm (amount : BitVec 5) (rs rd : LowReg) (s : State) : Answer :=
  answer (lowUnary .nzc rs rd (fun a => shifted (shiftImm .lsl amount a s.cpsr.c)) s)

/-- LSR Rd, Rs, #offset5: format T1 (`49_thumb.md` R806). -/
def execTLsrImm (amount : BitVec 5) (rs rd : LowReg) (s : State) : Answer :=
  answer (lowUnary .nzc rs rd (fun a => shifted (shiftImm .lsr amount a s.cpsr.c)) s)

/-- ASR Rd, Rs, #offset5: format T1 (`49_thumb.md` R807). -/
def execTAsrImm (amount : BitVec 5) (rs rd : LowReg) (s : State) : Answer :=
  answer (lowUnary .nzc rs rd (fun a => shifted (shiftImm .asr amount a s.cpsr.c)) s)

/-- MOV Rd, #imm8: format T3 (`49_thumb.md` R815). -/
def execTMovImm (rd : LowReg) (imm8 : BitVec 8) (s : State) : Answer :=
  answer (lowResult .nz rd (plain (imm8.zeroExtend 32)) s)

/-- CMP Rd, #imm8: format T3, no register written (`49_thumb.md` R816). -/
def execTCmpImm (rd : LowReg) (imm8 : BitVec 8) (s : State) : Answer :=
  answer (do
    let a ← readReg (lowReg rd) s
    pure { s with cpsr := s.cpsr.setNZCV (subtract a (imm8.zeroExtend 32)) })

/-- ADD Rd, #imm8: format T3 (`49_thumb.md` R817). -/
def execTAddImm8 (rd : LowReg) (imm8 : BitVec 8) (s : State) : Answer :=
  answer (lowUnary .nzcv rd rd (fun a => addWithCarry a (imm8.zeroExtend 32) false) s)

/-- SUB Rd, #imm8: format T3 (`49_thumb.md` R818). -/
def execTSubImm8 (rd : LowReg) (imm8 : BitVec 8) (s : State) : Answer :=
  answer (lowUnary .nzcv rd rd (fun a => subtract a (imm8.zeroExtend 32)) s)

/-- AND Rd, Rs: C and V unchanged (`49_thumb.md` R820). -/
def execTAnd (rs rd : LowReg) (s : State) : Answer :=
  answer (lowBinary .nz rd rs rd (fun a b => plain (a &&& b)) s)

/-- EOR Rd, Rs: C and V unchanged (`49_thumb.md` R821). -/
def execTEor (rs rd : LowReg) (s : State) : Answer :=
  answer (lowBinary .nz rd rs rd (fun a b => plain (a ^^^ b)) s)

/-- LSL Rd, Rs (`49_thumb.md` R822). -/
def execTLslReg (rs rd : LowReg) (s : State) : Answer :=
  answer (lowBinary .nzc rd rs rd (fun a b => shifted (shiftReg .lsl (lowByte b) a s.cpsr.c)) s)

/-- LSR Rd, Rs (`49_thumb.md` R823). -/
def execTLsrReg (rs rd : LowReg) (s : State) : Answer :=
  answer (lowBinary .nzc rd rs rd (fun a b => shifted (shiftReg .lsr (lowByte b) a s.cpsr.c)) s)

/-- ASR Rd, Rs (`49_thumb.md` R824). -/
def execTAsrReg (rs rd : LowReg) (s : State) : Answer :=
  answer (lowBinary .nzc rd rs rd (fun a b => shifted (shiftReg .asr (lowByte b) a s.cpsr.c)) s)

/-- ADC Rd, Rs (`49_thumb.md` R825). -/
def execTAdc (rs rd : LowReg) (s : State) : Answer :=
  answer (lowBinary .nzcv rd rs rd (fun a b => addWithCarry a b s.cpsr.c) s)

/-- SBC Rd, Rs (`49_thumb.md` R826). -/
def execTSbc (rs rd : LowReg) (s : State) : Answer :=
  answer (lowBinary .nzcv rd rs rd (fun a b => addWithCarry a (~~~b) s.cpsr.c) s)

/-- ROR Rd, Rs (`49_thumb.md` R827). -/
def execTRor (rs rd : LowReg) (s : State) : Answer :=
  answer (lowBinary .nzc rd rs rd (fun a b => shifted (shiftReg .ror (lowByte b) a s.cpsr.c)) s)

/-- TST Rd, Rs: no register written (`49_thumb.md` R828). -/
def execTTst (rs rd : LowReg) (s : State) : Answer :=
  answer (lowCompare .nz rd rs (fun a b => plain (a &&& b)) s)

/-- NEG Rd, Rs: 0 - Rs (`49_thumb.md` R829). -/
def execTNeg (rs rd : LowReg) (s : State) : Answer :=
  answer (lowUnary .nzcv rs rd (fun b => subtract 0 b) s)

/-- CMP Rd, Rs: no register written (`49_thumb.md` R830). -/
def execTCmpReg (rs rd : LowReg) (s : State) : Answer :=
  answer (lowCompare .nzcv rd rs subtract s)

/-- CMN Rd, Rs: no register written (`49_thumb.md` R831). -/
def execTCmn (rs rd : LowReg) (s : State) : Answer :=
  answer (lowCompare .nzcv rd rs (fun a b => addWithCarry a b false) s)

/-- ORR Rd, Rs: C and V unchanged (`49_thumb.md` R832). -/
def execTOrr (rs rd : LowReg) (s : State) : Answer :=
  answer (lowBinary .nz rd rs rd (fun a b => plain (a ||| b)) s)

/-- MUL Rd, Rs: C is a draw (`49_thumb.md` R833). -/
def execTMul (rs rd : LowReg) (s : State) : Answer :=
  answer (lowMultiply rs rd s)

/-- BIC Rd, Rs: C and V unchanged (`49_thumb.md` R834). -/
def execTBic (rs rd : LowReg) (s : State) : Answer :=
  answer (lowBinary .nz rd rs rd (fun a b => plain (a &&& ~~~b)) s)

/-- MVN Rd, Rs: C and V unchanged (`49_thumb.md` R835). -/
def execTMvn (rs rd : LowReg) (s : State) : Answer :=
  answer (lowUnary .nz rs rd (fun b => plain (~~~b)) s)

/-- ADD on high registers: no flag written; a result in R15 is `pc <-` (`49_thumb.md` R836). -/
def execTAddHi (h1 h2 : Bool) (rs rd : LowReg) (s : State) : Answer :=
  answer (do
    hiCheck h1 h2 s
    let a ← readReg (hiReg h1 rd) s
    let b ← readReg (hiReg h2 rs) s
    writeReg (hiReg h1 rd) (a + b) s)

/-- CMP on high registers: no register written (`49_thumb.md` R837). -/
def execTCmpHi (h1 h2 : Bool) (rs rd : LowReg) (s : State) : Answer :=
  answer (do
    hiCheck h1 h2 s
    let a ← readReg (hiReg h1 rd) s
    let b ← readReg (hiReg h2 rs) s
    pure { s with cpsr := s.cpsr.setNZCV (subtract a b) })

/-- MOV on high registers: no flag written; a result in R15 is `pc <-` (`49_thumb.md` R838). -/
def execTMovHi (h1 h2 : Bool) (rs rd : LowReg) (s : State) : Answer :=
  answer (do
    hiCheck h1 h2 s
    let b ← readReg (hiReg h2 rs) s
    writeReg (hiReg h1 rd) b s)

/-- ADD Rd, PC, #word8 << 2: no flags (`49_thumb.md` R862). -/
def execTAddPc (rd : LowReg) (word8 : BitVec 8) (s : State) : Answer :=
  answer (writeReg (lowReg rd) (alignWord s.regs.pc + word8Offset word8) s)

/-- ADD Rd, SP, #word8 << 2: no flags (`49_thumb.md` R863). -/
def execTAddSpRd (rd : LowReg) (word8 : BitVec 8) (s : State) : Answer :=
  answer (do
    let sp ← readReg 13 s
    writeReg (lowReg rd) (sp + word8Offset word8) s)

/-- ADD SP, #sword7 << 2: no flags (`49_thumb.md` R864). -/
def execTAddSpImm (sword7 : BitVec 7) (s : State) : Answer :=
  answer (do
    let sp ← readReg 13 s
    writeReg 13 (sp + sword7Offset sword7) s)

/-- SUB SP, #sword7 << 2: no flags (`49_thumb.md` R865). -/
def execTSubSpImm (sword7 : BitVec 7) (s : State) : Answer :=
  answer (do
    let sp ← readReg 13 s
    writeReg 13 (sp - sword7Offset sword7) s)

end Sys2Proof.Machine
end

