-- ==== Sys2Proof/Machine/ThumbBranch.lean ====
section
/-!
DEFINITION. Thumb branches, software interrupt and undefined: BX of format T5 and formats T16 to T19 (`49_thumb.md`
R839, R876 to R881).
-/

namespace Sys2Proof.Machine

/-- BX Rs or Hs: format T5; bits 2 to 0 are not read (`49_thumb.md` R839). -/
def execTBx (h1 h2 : Bool) (rs _rd : LowReg) (s : State) : Answer :=
  answer (do
    failIf h1 (.unpredictable .thumbBxH1) s
    let t ← readReg (hiReg h2 rs) s
    branchExchange t s)

/-- SWI: format T17; value8 is not read (`49_thumb.md` R877). -/
def execTSwi (_value8 : BitVec 8) (s : State) : Answer :=
  answer (raiseSoftwareInterrupt s)

/-- Undefined, 0xDE00 to 0xDEFF (`49_thumb.md` R881). -/
def execTUndefinedDe (_payload : BitVec 8) (s : State) : Answer :=
  answer (raiseUndefined s)

/-- B<cond>: format T16 (`49_thumb.md` R876). -/
def execTBCond (c : Cond) (soff8 : BitVec 8) (s : State) : Answer :=
  if Cond.passed c s.cpsr then .next (writePc (s.regs.pc + soff8Offset soff8) s) else .next s

/-- B: format T18 (`49_thumb.md` R880). -/
def execTB (off11 : BitVec 11) (s : State) : Answer :=
  answer (.ok (writePc (s.regs.pc + off11Offset off11) s))

/-- Undefined, 0xE800 to 0xEFFF (`49_thumb.md` R881). -/
def execTUndefinedE8 (_payload : BitVec 11) (s : State) : Answer :=
  answer (raiseUndefined s)

/-- BL, first half: format T19; it does not flush (`49_thumb.md` R878). -/
def execTBlFirst (off11 : BitVec 11) (s : State) : Answer :=
  answer (writeReg 14 (s.regs.pc + blHighOffset off11) s)

/-- BL, second half: format T19 (`49_thumb.md` R879). -/
def execTBlSecond (off11 : BitVec 11) (s : State) : Answer :=
  answer (do
    let lr ← readReg 14 s
    let s1 ← writeReg 14 ((s.regs.pc - 2) ||| 1) s
    pure (writePc (lr + blLowOffset off11) s1))

/-- Undefined, the 0xB000 space (`49_thumb.md` R881). -/
def execTUndefinedB (_payload : BitVec 12) (s : State) : Answer :=
  answer (raiseUndefined s)

end Sys2Proof.Machine
end

