-- ==== Sys2Proof/Machine/ThumbTransfer.lean ====
section
/-!
DEFINITION. Thumb loads and stores: formats T6 to T11, T14 and T15 (`49_thumb.md` R840 to R857, R866 to R869).
-/

namespace Sys2Proof.Machine

/-- The transfer widths (`49_thumb.md` R802). -/
inductive Width where
  | byte
  | half
  | word
  deriving DecidableEq, Repr

/-- `MemRead` of a width (`00_scope.md` R18). -/
def memRead (w : Width) (a : Word) (s : State) : Word × State :=
  match w with
  | .byte => read8 a s
  | .half => read16 a s
  | .word => read32 a s

/-- `MemWrite` of a width (`00_scope.md` R18). -/
def memWrite (w : Width) (a v : Word) (s : State) : State :=
  match w with
  | .byte => write8 a v s
  | .half => write16 a v s
  | .word => write32 a v s

/-- `addr = x[Rb] + offset`. -/
def baseOffset (rb : Reg) (offset : Word) (s : State) : Except Fault Word := do
  let base ← readReg rb s
  pure (base + offset)

/-- `addr = x[Rb] + x[Ro]` (`49_thumb.md` R841). -/
def baseIndex (rb ro : LowReg) (s : State) : Except Fault Word := do
  let base ← readReg (lowReg rb) s
  let offset ← readReg (lowReg ro) s
  pure (base + offset)

/-- `x[Rd] <- MemRead(addr)`: no write-back (`49_thumb.md` R802). -/
def lowLoad (w : Width) (rd : LowReg) (a : Word) (s : State) : Except Fault State :=
  let data := memRead w a s
  writeReg (lowReg rd) data.1 data.2

/-- A load of `47_arm_swap_halfword.md` R711 into a low register. -/
def lowLoadHalf (k : HalfLoad) (rd : LowReg) (a : Word) (s : State) : Except Fault State :=
  let data := halfLoad k a s
  writeReg (lowReg rd) data.1 data.2

/-- `MemWrite(addr, x[Rd])`: no write-back (`49_thumb.md` R802). -/
def lowStore (w : Width) (rd : LowReg) (a : Word) (s : State) : Except Fault State := do
  let v ← readReg (lowReg rd) s
  pure (memWrite w a v s)

/-- rlist as a register list, with one more register if `r` (`49_thumb.md` R866, R867). -/
def stackList (r : Bool) (i : Reg) (rlist : BitVec 8) : BitVec 16 :=
  rlist.zeroExtend 16 ||| (if r then 1#16 <<< i.toNat else 0#16)

/-- PUSH: STMDB SP! (`49_thumb.md` R866). -/
def push (r : Bool) (rlist : BitVec 8) (s : State) : Except Fault State := do
  let regs := regList (stackList r 14 rlist)
  failIf regs.isEmpty (.unpredictable .emptyRegisterList) s
  let sp ← readReg 13 s
  let s1 ← storeRegs false regs (sp - blockBytes regs) s
  writeReg 13 (sp - blockBytes regs) s1

/-- POP: LDMIA SP!, the program counter last (`49_thumb.md` R867). -/
def pop (r : Bool) (rlist : BitVec 8) (s : State) : Except Fault State := do
  let regs := regList (stackList r 15 rlist)
  failIf regs.isEmpty (.unpredictable .emptyRegisterList) s
  let sp ← readReg 13 s
  let l ← loadRegs false (regList (rlist.zeroExtend 16)) sp s
  if r then do
    let v := memReadAligned l.1 l.2
    let s1 ← writeReg 13 (sp + blockBytes regs) v.2
    pure (writePc v.1 s1)
  else writeReg 13 (sp + blockBytes regs) l.2

/-- STMIA Rb! (`49_thumb.md` R868). -/
def lowStoreMultiple (rb : LowReg) (rlist : BitVec 8) (s : State) : Except Fault State := do
  let regs := regList (rlist.zeroExtend 16)
  failIf (rlist == 0) (.unpredictable .emptyRegisterList) s
  failIf (rlist.getLsbD rb.toNat && regs.head? != some (lowReg rb)) (.unpredictable .stmWritebackBaseNotFirst) s
  let base ← readReg (lowReg rb) s
  let s1 ← storeRegs false regs base s
  writeReg (lowReg rb) (base + blockBytes regs) s1

/-- LDMIA Rb!: no write-back when Rb is in the list (`49_thumb.md` R869). -/
def lowLoadMultiple (rb : LowReg) (rlist : BitVec 8) (s : State) : Except Fault State := do
  let regs := regList (rlist.zeroExtend 16)
  failIf (rlist == 0) (.unpredictable .emptyRegisterList) s
  let base ← readReg (lowReg rb) s
  let l ← loadRegs false regs base s
  writeBack (!rlist.getLsbD rb.toNat) (lowReg rb) (base + blockBytes regs) l.2

/-- LDR Rd, [PC, #word8 << 2]: format T6 (`49_thumb.md` R840). -/
def execTLdrPc (rd : LowReg) (word8 : BitVec 8) (s : State) : Answer :=
  answer (lowLoad .word rd (alignWord s.regs.pc + word8Offset word8) s)

/-- STR Rd, [Rb, Ro]: format T7 (`49_thumb.md` R842). -/
def execTStrReg (ro rb rd : LowReg) (s : State) : Answer :=
  answer (do
    let a ← baseIndex rb ro s
    lowStore .word rd a s)

/-- STRB Rd, [Rb, Ro]: format T7 (`49_thumb.md` R843). -/
def execTStrbReg (ro rb rd : LowReg) (s : State) : Answer :=
  answer (do
    let a ← baseIndex rb ro s
    lowStore .byte rd a s)

/-- LDR Rd, [Rb, Ro]: format T7 (`49_thumb.md` R844). -/
def execTLdrReg (ro rb rd : LowReg) (s : State) : Answer :=
  answer (do
    let a ← baseIndex rb ro s
    lowLoad .word rd a s)

/-- LDRB Rd, [Rb, Ro]: format T7 (`49_thumb.md` R845). -/
def execTLdrbReg (ro rb rd : LowReg) (s : State) : Answer :=
  answer (do
    let a ← baseIndex rb ro s
    lowLoad .byte rd a s)

/-- STRH Rd, [Rb, Ro]: format T8 (`49_thumb.md` R846). -/
def execTStrhReg (ro rb rd : LowReg) (s : State) : Answer :=
  answer (do
    let a ← baseIndex rb ro s
    lowStore .half rd a s)

/-- LDSB Rd, [Rb, Ro]: format T8 (`49_thumb.md` R847). -/
def execTLdsb (ro rb rd : LowReg) (s : State) : Answer :=
  answer (do
    let a ← baseIndex rb ro s
    lowLoadHalf .signedByte rd a s)

/-- LDRH Rd, [Rb, Ro]: format T8 (`49_thumb.md` R848). -/
def execTLdrhReg (ro rb rd : LowReg) (s : State) : Answer :=
  answer (do
    let a ← baseIndex rb ro s
    lowLoadHalf .unsignedHalf rd a s)

/-- LDSH Rd, [Rb, Ro]: format T8 (`49_thumb.md` R849). -/
def execTLdsh (ro rb rd : LowReg) (s : State) : Answer :=
  answer (do
    let a ← baseIndex rb ro s
    lowLoadHalf .signedHalf rd a s)

/-- STR Rd, [Rb, #offset5 << 2]: format T9 (`49_thumb.md` R850). -/
def execTStrImm (off5 : BitVec 5) (rb rd : LowReg) (s : State) : Answer :=
  answer (do
    let a ← baseOffset (lowReg rb) (off5Word off5) s
    lowStore .word rd a s)

/-- LDR Rd, [Rb, #offset5 << 2]: format T9 (`49_thumb.md` R851). -/
def execTLdrImm (off5 : BitVec 5) (rb rd : LowReg) (s : State) : Answer :=
  answer (do
    let a ← baseOffset (lowReg rb) (off5Word off5) s
    lowLoad .word rd a s)

/-- STRB Rd, [Rb, #offset5]: format T9 (`49_thumb.md` R852). -/
def execTStrbImm (off5 : BitVec 5) (rb rd : LowReg) (s : State) : Answer :=
  answer (do
    let a ← baseOffset (lowReg rb) (off5Byte off5) s
    lowStore .byte rd a s)

/-- LDRB Rd, [Rb, #offset5]: format T9 (`49_thumb.md` R853). -/
def execTLdrbImm (off5 : BitVec 5) (rb rd : LowReg) (s : State) : Answer :=
  answer (do
    let a ← baseOffset (lowReg rb) (off5Byte off5) s
    lowLoad .byte rd a s)

/-- STRH Rd, [Rb, #offset5 << 1]: format T10 (`49_thumb.md` R854). -/
def execTStrhImm (off5 : BitVec 5) (rb rd : LowReg) (s : State) : Answer :=
  answer (do
    let a ← baseOffset (lowReg rb) (off5Half off5) s
    lowStore .half rd a s)

/-- LDRH Rd, [Rb, #offset5 << 1]: format T10 (`49_thumb.md` R855). -/
def execTLdrhImm (off5 : BitVec 5) (rb rd : LowReg) (s : State) : Answer :=
  answer (do
    let a ← baseOffset (lowReg rb) (off5Half off5) s
    lowLoadHalf .unsignedHalf rd a s)

/-- STR Rd, [SP, #word8 << 2]: format T11 (`49_thumb.md` R856). -/
def execTStrSp (rd : LowReg) (word8 : BitVec 8) (s : State) : Answer :=
  answer (do
    let a ← baseOffset 13 (word8Offset word8) s
    lowStore .word rd a s)

/-- LDR Rd, [SP, #word8 << 2]: format T11 (`49_thumb.md` R857). -/
def execTLdrSp (rd : LowReg) (word8 : BitVec 8) (s : State) : Answer :=
  answer (do
    let a ← baseOffset 13 (word8Offset word8) s
    lowLoad .word rd a s)

/-- PUSH {rlist, LR}: format T14 (`49_thumb.md` R866). -/
def execTPush (r : Bool) (rlist : BitVec 8) (s : State) : Answer :=
  answer (push r rlist s)

/-- POP {rlist, PC}: format T14 (`49_thumb.md` R867). -/
def execTPop (r : Bool) (rlist : BitVec 8) (s : State) : Answer :=
  answer (pop r rlist s)

/-- STMIA Rb!, {rlist}: format T15 (`49_thumb.md` R868). -/
def execTStmia (rb : LowReg) (rlist : BitVec 8) (s : State) : Answer :=
  answer (lowStoreMultiple rb rlist s)

/-- LDMIA Rb!, {rlist}: format T15 (`49_thumb.md` R869). -/
def execTLdmia (rb : LowReg) (rlist : BitVec 8) (s : State) : Answer :=
  answer (lowLoadMultiple rb rlist s)

end Sys2Proof.Machine
end

