-- ==== Sys2Proof/Machine/Dispatch.lean ====
section
/-!
DEFINITION. The meaning of every instruction: one arm per constructor of Instr, one direct call each.
-/

namespace Sys2Proof.Machine

def exec (i : Instr) (s : State) : Host.Outcome State Fault Refusal :=
  match i with
  | .bx c rm => Sys2Proof.Machine.execBx c rm s
  | .mul c sf rd rs rm => Sys2Proof.Machine.execMul c sf rd rs rm s
  | .mla c sf rd rn rs rm => Sys2Proof.Machine.execMla c sf rd rn rs rm s
  | .umull c sf rdHi rdLo rs rm => Sys2Proof.Machine.execUmull c sf rdHi rdLo rs rm s
  | .umlal c sf rdHi rdLo rs rm => Sys2Proof.Machine.execUmlal c sf rdHi rdLo rs rm s
  | .smull c sf rdHi rdLo rs rm => Sys2Proof.Machine.execSmull c sf rdHi rdLo rs rm s
  | .smlal c sf rdHi rdLo rs rm => Sys2Proof.Machine.execSmlal c sf rdHi rdLo rs rm s
  | .swp c rn rd rm => Sys2Proof.Machine.execSwp c rn rd rm s
  | .swpb c rn rd rm => Sys2Proof.Machine.execSwpb c rn rd rm s
  | .strhImm c p u w rn rd immHi immLo => Sys2Proof.Machine.execStrhImm c p u w rn rd immHi immLo s
  | .strhReg c p u w rn rd rm => Sys2Proof.Machine.execStrhReg c p u w rn rd rm s
  | .ldrhImm c p u w rn rd immHi immLo => Sys2Proof.Machine.execLdrhImm c p u w rn rd immHi immLo s
  | .ldrhReg c p u w rn rd rm => Sys2Proof.Machine.execLdrhReg c p u w rn rd rm s
  | .ldrsbImm c p u w rn rd immHi immLo => Sys2Proof.Machine.execLdrsbImm c p u w rn rd immHi immLo s
  | .ldrsbReg c p u w rn rd rm => Sys2Proof.Machine.execLdrsbReg c p u w rn rd rm s
  | .ldrshImm c p u w rn rd immHi immLo => Sys2Proof.Machine.execLdrshImm c p u w rn rd immHi immLo s
  | .ldrshReg c p u w rn rd rm => Sys2Proof.Machine.execLdrshReg c p u w rn rd rm s
  | .halfwordSignedStore c p u imm w rn rd hi h lo => Sys2Proof.Machine.execHalfwordSignedStore c p u imm w rn rd hi h lo s
  | .mrs c r rd => Sys2Proof.Machine.execMrs c r rd s
  | .msrReg c r mask rm => Sys2Proof.Machine.execMsrReg c r mask rm s
  | .msrImm c r mask rot imm8 => Sys2Proof.Machine.execMsrImm c r mask rot imm8 s
  | .andImm c sf rn rd rot imm8 => Sys2Proof.Machine.execAndImm c sf rn rd rot imm8 s
  | .andRegImmShift c sf rn rd amount k rm => Sys2Proof.Machine.execAndRegImmShift c sf rn rd amount k rm s
  | .andRegRegShift c sf rn rd rs k rm => Sys2Proof.Machine.execAndRegRegShift c sf rn rd rs k rm s
  | .eorImm c sf rn rd rot imm8 => Sys2Proof.Machine.execEorImm c sf rn rd rot imm8 s
  | .eorRegImmShift c sf rn rd amount k rm => Sys2Proof.Machine.execEorRegImmShift c sf rn rd amount k rm s
  | .eorRegRegShift c sf rn rd rs k rm => Sys2Proof.Machine.execEorRegRegShift c sf rn rd rs k rm s
  | .subImm c sf rn rd rot imm8 => Sys2Proof.Machine.execSubImm c sf rn rd rot imm8 s
  | .subRegImmShift c sf rn rd amount k rm => Sys2Proof.Machine.execSubRegImmShift c sf rn rd amount k rm s
  | .subRegRegShift c sf rn rd rs k rm => Sys2Proof.Machine.execSubRegRegShift c sf rn rd rs k rm s
  | .rsbImm c sf rn rd rot imm8 => Sys2Proof.Machine.execRsbImm c sf rn rd rot imm8 s
  | .rsbRegImmShift c sf rn rd amount k rm => Sys2Proof.Machine.execRsbRegImmShift c sf rn rd amount k rm s
  | .rsbRegRegShift c sf rn rd rs k rm => Sys2Proof.Machine.execRsbRegRegShift c sf rn rd rs k rm s
  | .addImm c sf rn rd rot imm8 => Sys2Proof.Machine.execAddImm c sf rn rd rot imm8 s
  | .addRegImmShift c sf rn rd amount k rm => Sys2Proof.Machine.execAddRegImmShift c sf rn rd amount k rm s
  | .addRegRegShift c sf rn rd rs k rm => Sys2Proof.Machine.execAddRegRegShift c sf rn rd rs k rm s
  | .adcImm c sf rn rd rot imm8 => Sys2Proof.Machine.execAdcImm c sf rn rd rot imm8 s
  | .adcRegImmShift c sf rn rd amount k rm => Sys2Proof.Machine.execAdcRegImmShift c sf rn rd amount k rm s
  | .adcRegRegShift c sf rn rd rs k rm => Sys2Proof.Machine.execAdcRegRegShift c sf rn rd rs k rm s
  | .sbcImm c sf rn rd rot imm8 => Sys2Proof.Machine.execSbcImm c sf rn rd rot imm8 s
  | .sbcRegImmShift c sf rn rd amount k rm => Sys2Proof.Machine.execSbcRegImmShift c sf rn rd amount k rm s
  | .sbcRegRegShift c sf rn rd rs k rm => Sys2Proof.Machine.execSbcRegRegShift c sf rn rd rs k rm s
  | .rscImm c sf rn rd rot imm8 => Sys2Proof.Machine.execRscImm c sf rn rd rot imm8 s
  | .rscRegImmShift c sf rn rd amount k rm => Sys2Proof.Machine.execRscRegImmShift c sf rn rd amount k rm s
  | .rscRegRegShift c sf rn rd rs k rm => Sys2Proof.Machine.execRscRegRegShift c sf rn rd rs k rm s
  | .tstImm c rn rot imm8 => Sys2Proof.Machine.execTstImm c rn rot imm8 s
  | .tstRegImmShift c rn amount k rm => Sys2Proof.Machine.execTstRegImmShift c rn amount k rm s
  | .tstRegRegShift c rn rd rs k rm => Sys2Proof.Machine.execTstRegRegShift c rn rd rs k rm s
  | .teqImm c rn rot imm8 => Sys2Proof.Machine.execTeqImm c rn rot imm8 s
  | .teqRegImmShift c rn amount k rm => Sys2Proof.Machine.execTeqRegImmShift c rn amount k rm s
  | .teqRegRegShift c rn rd rs k rm => Sys2Proof.Machine.execTeqRegRegShift c rn rd rs k rm s
  | .cmpImm c rn rot imm8 => Sys2Proof.Machine.execCmpImm c rn rot imm8 s
  | .cmpRegImmShift c rn amount k rm => Sys2Proof.Machine.execCmpRegImmShift c rn amount k rm s
  | .cmpRegRegShift c rn rd rs k rm => Sys2Proof.Machine.execCmpRegRegShift c rn rd rs k rm s
  | .cmnImm c rn rot imm8 => Sys2Proof.Machine.execCmnImm c rn rot imm8 s
  | .cmnRegImmShift c rn amount k rm => Sys2Proof.Machine.execCmnRegImmShift c rn amount k rm s
  | .cmnRegRegShift c rn rd rs k rm => Sys2Proof.Machine.execCmnRegRegShift c rn rd rs k rm s
  | .orrImm c sf rn rd rot imm8 => Sys2Proof.Machine.execOrrImm c sf rn rd rot imm8 s
  | .orrRegImmShift c sf rn rd amount k rm => Sys2Proof.Machine.execOrrRegImmShift c sf rn rd amount k rm s
  | .orrRegRegShift c sf rn rd rs k rm => Sys2Proof.Machine.execOrrRegRegShift c sf rn rd rs k rm s
  | .movImm c sf rd rot imm8 => Sys2Proof.Machine.execMovImm c sf rd rot imm8 s
  | .movRegImmShift c sf rd amount k rm => Sys2Proof.Machine.execMovRegImmShift c sf rd amount k rm s
  | .movRegRegShift c sf rn rd rs k rm => Sys2Proof.Machine.execMovRegRegShift c sf rn rd rs k rm s
  | .bicImm c sf rn rd rot imm8 => Sys2Proof.Machine.execBicImm c sf rn rd rot imm8 s
  | .bicRegImmShift c sf rn rd amount k rm => Sys2Proof.Machine.execBicRegImmShift c sf rn rd amount k rm s
  | .bicRegRegShift c sf rn rd rs k rm => Sys2Proof.Machine.execBicRegRegShift c sf rn rd rs k rm s
  | .mvnImm c sf rd rot imm8 => Sys2Proof.Machine.execMvnImm c sf rd rot imm8 s
  | .mvnRegImmShift c sf rd amount k rm => Sys2Proof.Machine.execMvnRegImmShift c sf rd amount k rm s
  | .mvnRegRegShift c sf rn rd rs k rm => Sys2Proof.Machine.execMvnRegRegShift c sf rn rd rs k rm s
  | .undefinedRow8 c upper lower => Sys2Proof.Machine.execUndefinedRow8 c upper lower s
  | .strt c u rn rd off => Sys2Proof.Machine.execStrt c u rn rd off s
  | .ldrt c u rn rd off => Sys2Proof.Machine.execLdrt c u rn rd off s
  | .strbt c u rn rd off => Sys2Proof.Machine.execStrbt c u rn rd off s
  | .ldrbt c u rn rd off => Sys2Proof.Machine.execLdrbt c u rn rd off s
  | .str c p u w rn rd off => Sys2Proof.Machine.execStr c p u w rn rd off s
  | .ldr c p u w rn rd off => Sys2Proof.Machine.execLdr c p u w rn rd off s
  | .strb c p u w rn rd off => Sys2Proof.Machine.execStrb c p u w rn rd off s
  | .ldrb c p u w rn rd off => Sys2Proof.Machine.execLdrb c p u w rn rd off s
  | .stmda c sb w rn list => Sys2Proof.Machine.execStmda c sb w rn list s
  | .ldmda c sb w rn list => Sys2Proof.Machine.execLdmda c sb w rn list s
  | .stmia c sb w rn list => Sys2Proof.Machine.execStmia c sb w rn list s
  | .ldmia c sb w rn list => Sys2Proof.Machine.execLdmia c sb w rn list s
  | .stmdb c sb w rn list => Sys2Proof.Machine.execStmdb c sb w rn list s
  | .ldmdb c sb w rn list => Sys2Proof.Machine.execLdmdb c sb w rn list s
  | .stmib c sb w rn list => Sys2Proof.Machine.execStmib c sb w rn list s
  | .ldmib c sb w rn list => Sys2Proof.Machine.execLdmib c sb w rn list s
  | .b c imm24 => Sys2Proof.Machine.execB c imm24 s
  | .bl c imm24 => Sys2Proof.Machine.execBl c imm24 s
  | .ldcStcUndefined c p u n w l rn crd cp off => Sys2Proof.Machine.execLdcStcUndefined c p u n w l rn crd cp off s
  | .cdp c op1 crn crd cp op2 crm => Sys2Proof.Machine.execCdp c op1 crn crd cp op2 crm s
  | .mcr c op1 crn rd cp op2 crm => Sys2Proof.Machine.execMcr c op1 crn rd cp op2 crm s
  | .mrc c op1 crn rd cp op2 crm => Sys2Proof.Machine.execMrc c op1 crn rd cp op2 crm s
  | .swi c comment => Sys2Proof.Machine.execSwi c comment s
  | .tAddReg rn rs rd => Sys2Proof.Machine.execTAddReg rn rs rd s
  | .tSubReg rn rs rd => Sys2Proof.Machine.execTSubReg rn rs rd s
  | .tAddImm3 imm3 rs rd => Sys2Proof.Machine.execTAddImm3 imm3 rs rd s
  | .tSubImm3 imm3 rs rd => Sys2Proof.Machine.execTSubImm3 imm3 rs rd s
  | .tLslImm amount rs rd => Sys2Proof.Machine.execTLslImm amount rs rd s
  | .tLsrImm amount rs rd => Sys2Proof.Machine.execTLsrImm amount rs rd s
  | .tAsrImm amount rs rd => Sys2Proof.Machine.execTAsrImm amount rs rd s
  | .tMovImm rd imm8 => Sys2Proof.Machine.execTMovImm rd imm8 s
  | .tCmpImm rd imm8 => Sys2Proof.Machine.execTCmpImm rd imm8 s
  | .tAddImm8 rd imm8 => Sys2Proof.Machine.execTAddImm8 rd imm8 s
  | .tSubImm8 rd imm8 => Sys2Proof.Machine.execTSubImm8 rd imm8 s
  | .tAnd rs rd => Sys2Proof.Machine.execTAnd rs rd s
  | .tEor rs rd => Sys2Proof.Machine.execTEor rs rd s
  | .tLslReg rs rd => Sys2Proof.Machine.execTLslReg rs rd s
  | .tLsrReg rs rd => Sys2Proof.Machine.execTLsrReg rs rd s
  | .tAsrReg rs rd => Sys2Proof.Machine.execTAsrReg rs rd s
  | .tAdc rs rd => Sys2Proof.Machine.execTAdc rs rd s
  | .tSbc rs rd => Sys2Proof.Machine.execTSbc rs rd s
  | .tRor rs rd => Sys2Proof.Machine.execTRor rs rd s
  | .tTst rs rd => Sys2Proof.Machine.execTTst rs rd s
  | .tNeg rs rd => Sys2Proof.Machine.execTNeg rs rd s
  | .tCmpReg rs rd => Sys2Proof.Machine.execTCmpReg rs rd s
  | .tCmn rs rd => Sys2Proof.Machine.execTCmn rs rd s
  | .tOrr rs rd => Sys2Proof.Machine.execTOrr rs rd s
  | .tMul rs rd => Sys2Proof.Machine.execTMul rs rd s
  | .tBic rs rd => Sys2Proof.Machine.execTBic rs rd s
  | .tMvn rs rd => Sys2Proof.Machine.execTMvn rs rd s
  | .tAddHi h1 h2 rs rd => Sys2Proof.Machine.execTAddHi h1 h2 rs rd s
  | .tCmpHi h1 h2 rs rd => Sys2Proof.Machine.execTCmpHi h1 h2 rs rd s
  | .tMovHi h1 h2 rs rd => Sys2Proof.Machine.execTMovHi h1 h2 rs rd s
  | .tBx h1 h2 rs rd => Sys2Proof.Machine.execTBx h1 h2 rs rd s
  | .tLdrPc rd word8 => Sys2Proof.Machine.execTLdrPc rd word8 s
  | .tStrReg ro rb rd => Sys2Proof.Machine.execTStrReg ro rb rd s
  | .tStrbReg ro rb rd => Sys2Proof.Machine.execTStrbReg ro rb rd s
  | .tLdrReg ro rb rd => Sys2Proof.Machine.execTLdrReg ro rb rd s
  | .tLdrbReg ro rb rd => Sys2Proof.Machine.execTLdrbReg ro rb rd s
  | .tStrhReg ro rb rd => Sys2Proof.Machine.execTStrhReg ro rb rd s
  | .tLdsb ro rb rd => Sys2Proof.Machine.execTLdsb ro rb rd s
  | .tLdrhReg ro rb rd => Sys2Proof.Machine.execTLdrhReg ro rb rd s
  | .tLdsh ro rb rd => Sys2Proof.Machine.execTLdsh ro rb rd s
  | .tStrImm off5 rb rd => Sys2Proof.Machine.execTStrImm off5 rb rd s
  | .tLdrImm off5 rb rd => Sys2Proof.Machine.execTLdrImm off5 rb rd s
  | .tStrbImm off5 rb rd => Sys2Proof.Machine.execTStrbImm off5 rb rd s
  | .tLdrbImm off5 rb rd => Sys2Proof.Machine.execTLdrbImm off5 rb rd s
  | .tStrhImm off5 rb rd => Sys2Proof.Machine.execTStrhImm off5 rb rd s
  | .tLdrhImm off5 rb rd => Sys2Proof.Machine.execTLdrhImm off5 rb rd s
  | .tStrSp rd word8 => Sys2Proof.Machine.execTStrSp rd word8 s
  | .tLdrSp rd word8 => Sys2Proof.Machine.execTLdrSp rd word8 s
  | .tAddPc rd word8 => Sys2Proof.Machine.execTAddPc rd word8 s
  | .tAddSpRd rd word8 => Sys2Proof.Machine.execTAddSpRd rd word8 s
  | .tAddSpImm sword7 => Sys2Proof.Machine.execTAddSpImm sword7 s
  | .tSubSpImm sword7 => Sys2Proof.Machine.execTSubSpImm sword7 s
  | .tPush r rlist => Sys2Proof.Machine.execTPush r rlist s
  | .tPop r rlist => Sys2Proof.Machine.execTPop r rlist s
  | .tStmia rb rlist => Sys2Proof.Machine.execTStmia rb rlist s
  | .tLdmia rb rlist => Sys2Proof.Machine.execTLdmia rb rlist s
  | .tSwi value8 => Sys2Proof.Machine.execTSwi value8 s
  | .tUndefinedDe payload => Sys2Proof.Machine.execTUndefinedDe payload s
  | .tBCond c soff8 => Sys2Proof.Machine.execTBCond c soff8 s
  | .tB off11 => Sys2Proof.Machine.execTB off11 s
  | .tUndefinedE8 payload => Sys2Proof.Machine.execTUndefinedE8 payload s
  | .tBlFirst off11 => Sys2Proof.Machine.execTBlFirst off11 s
  | .tBlSecond off11 => Sys2Proof.Machine.execTBlSecond off11 s
  | .tUndefinedB payload => Sys2Proof.Machine.execTUndefinedB payload s

end Sys2Proof.Machine
end

