-- ==== Sys2Proof/WellFormed.lean ====
section
/-!
DEFINITION. Which terms of `Instr` are instructions: those the encoder spells by a word that the decoder reads back.
The operand types already bound every field; three checks remain (`30_encoding.md` R302: the table's order carries a
precedence, so some operand values of a row belong to an earlier row).
-/

namespace Sys2Proof

/-- P = 0 with W = 1 spells the T form, an earlier row of the table (`43_arm_single_transfer.md` R510 to R519). -/
def sdtFormOk (p w : Bool) : Bool := p || !w

/-- The codes 1110 and 1111 spell the undefined row 20 and SWI (`49_thumb.md` R876). -/
def thumbCondOk (c : Cond) : Bool := c != .al && c != .nv

/-- Bits 11:8 of a word in a gap of the 1011 space: none of T13 and T14 (`30_encoding.md` R271 row 20). -/
def gapPayloadOk (payload : BitVec 12) : Bool :=
  payload.extractLsb' 8 4 != 0b0000#4 && payload.extractLsb' 9 2 != 0b10#2

/-- The syntactic well-formedness of an instruction. -/
def Instr.wellFormed : Instr → Bool
  | .str _ p _ w _ _ _ => sdtFormOk p w
  | .ldr _ p _ w _ _ _ => sdtFormOk p w
  | .strb _ p _ w _ _ _ => sdtFormOk p w
  | .ldrb _ p _ w _ _ _ => sdtFormOk p w
  | .tBCond c _ => thumbCondOk c
  | .tUndefinedB payload => gapPayloadOk payload
  | _ => true

end Sys2Proof
end

