-- ==== Sys2Proof/Decode.lean ====
section
/-!
DEFINITION. The decoder, total on every ARM word and every Thumb halfword (`30_encoding.md` R254, R272), then the
encoder. The category is the first predicate that holds of the decode index, in the order of R253 and R271; inside a
category the instruction's own bits choose the row of `opcode_table.json`. Field positions: R257 to R267, R275, R276.
-/

namespace Sys2Proof

/-- The condition field (`40_pipeline.md` R363). -/
def Cond.ofBits (x : BitVec 4) : Cond :=
  match x.getLsbD 3, x.getLsbD 2, x.getLsbD 1, x.getLsbD 0 with
  | false, false, false, false => .eq
  | false, false, false, true => .ne
  | false, false, true, false => .cs
  | false, false, true, true => .cc
  | false, true, false, false => .mi
  | false, true, false, true => .pl
  | false, true, true, false => .vs
  | false, true, true, true => .vc
  | true, false, false, false => .hi
  | true, false, false, true => .ls
  | true, false, true, false => .ge
  | true, false, true, true => .lt
  | true, true, false, false => .gt
  | true, true, false, true => .le
  | true, true, true, false => .al
  | true, true, true, true => .nv

/-- The shift field (`30_encoding.md` R260). -/
def ShiftKind.ofBits (x : BitVec 2) : ShiftKind :=
  match x.getLsbD 1, x.getLsbD 0 with
  | false, false => .lsl
  | false, true => .lsr
  | true, false => .asr
  | true, true => .ror

/-- The data-processing opcode field (`30_encoding.md` R260). -/
def DpOp.ofBits (x : BitVec 4) : DpOp :=
  match x.getLsbD 3, x.getLsbD 2, x.getLsbD 1, x.getLsbD 0 with
  | false, false, false, false => .and
  | false, false, false, true => .eor
  | false, false, true, false => .sub
  | false, false, true, true => .rsb
  | false, true, false, false => .add
  | false, true, false, true => .adc
  | false, true, true, false => .sbc
  | false, true, true, true => .rsc
  | true, false, false, false => .tst
  | true, false, false, true => .teq
  | true, false, true, false => .cmp
  | true, false, true, true => .cmn
  | true, true, false, false => .orr
  | true, true, false, true => .mov
  | true, true, true, false => .bic
  | true, true, true, true => .mvn

/-! ### ARM -/

/-- The handler categories of `30_encoding.md` R253, by row. -/
inductive ArmCategory where
  | branchExchange
  | multiply
  | multiplyLong
  | singleDataSwap
  | halfwordDataTransfer
  | psrTransfer
  | dataProcessing
  | undefinedRow8
  | singleDataTransfer
  | blockDataTransfer
  | branch
  | undefinedRow12
  | coprocessorDataOperation
  | coprocessorRegisterTransfer
  | softwareInterrupt
  | undefinedRow16
  deriving DecidableEq, Repr

/-- The ARM decode index `instr[27:20] ++ instr[7:4]` (`30_encoding.md` R252). -/
def armIndex (w : Word) : BitVec 12 := w.extractLsb' 20 8 ++ w.extractLsb' 4 4

/-- The ARM decode table (`30_encoding.md` R253): the first row whose predicate holds. -/
def armCategory (idx : BitVec 12) : ArmCategory :=
  if idx = 0x121#12 then .branchExchange
  else if idx &&& 0xFCF#12 = 0x009#12 then .multiply
  else if idx &&& 0xF8F#12 = 0x089#12 then .multiplyLong
  else if idx &&& 0xFBF#12 = 0x109#12 then .singleDataSwap
  else if idx &&& 0xE09#12 = 0x009#12 ∧ idx &&& 0x006#12 ≠ 0#12 then .halfwordDataTransfer
  else if idx &&& 0xF9F#12 = 0x100#12 ∨ idx &&& 0xFB0#12 = 0x320#12 then .psrTransfer
  else if idx &&& 0xC00#12 = 0x000#12 then .dataProcessing
  else if idx &&& 0xE01#12 = 0x601#12 then .undefinedRow8
  else if idx &&& 0xC00#12 = 0x400#12 then .singleDataTransfer
  else if idx &&& 0xE00#12 = 0x800#12 then .blockDataTransfer
  else if idx &&& 0xE00#12 = 0xA00#12 then .branch
  else if idx &&& 0xE00#12 = 0xC00#12 then .undefinedRow12
  else if idx &&& 0xF01#12 = 0xE00#12 then .coprocessorDataOperation
  else if idx &&& 0xF01#12 = 0xE01#12 then .coprocessorRegisterTransfer
  else if idx &&& 0xF00#12 = 0xF00#12 then .softwareInterrupt
  else .undefinedRow16

/-- Multiply (`30_encoding.md` R262, format A7): bit 21 is accumulate. -/
def decodeMultiply (c : Cond) (w : Word) : Instr :=
  let sf := w.getLsbD 20
  let rd := w.extractLsb' 16 4
  let rn := w.extractLsb' 12 4
  let rs := w.extractLsb' 8 4
  let rm := w.extractLsb' 0 4
  if w.getLsbD 21 then .mla c sf rd rn rs rm else .mul c sf rd rs rm

/-- Multiply long (`30_encoding.md` R262, format A8): bit 22 is signed, bit 21 accumulate. -/
def decodeMultiplyLong (c : Cond) (w : Word) : Instr :=
  let sf := w.getLsbD 20
  let hi := w.extractLsb' 16 4
  let lo := w.extractLsb' 12 4
  let rs := w.extractLsb' 8 4
  let rm := w.extractLsb' 0 4
  match w.getLsbD 22, w.getLsbD 21 with
  | false, false => .umull c sf hi lo rs rm
  | false, true => .umlal c sf hi lo rs rm
  | true, false => .smull c sf hi lo rs rm
  | true, true => .smlal c sf hi lo rs rm

/-- Single data swap (`30_encoding.md` R263, format A9): bit 22 is B. -/
def decodeSwap (c : Cond) (w : Word) : Instr :=
  let rn := w.extractLsb' 16 4
  let rd := w.extractLsb' 12 4
  let rm := w.extractLsb' 0 4
  if w.getLsbD 22 then .swpb c rn rd rm else .swp c rn rd rm

/-- Halfword and signed transfer (`30_encoding.md` R264, formats A11 and A12): L is bit 20, S bit 6, H bit 5, I bit
22. The category keeps S H = 00 out. -/
def decodeHalfword (c : Cond) (w : Word) : Instr :=
  let p := w.getLsbD 24
  let u := w.getLsbD 23
  let wb := w.getLsbD 21
  let rn := w.extractLsb' 16 4
  let rd := w.extractLsb' 12 4
  let hi := w.extractLsb' 8 4
  let lo := w.extractLsb' 0 4
  match w.getLsbD 20, w.getLsbD 6, w.getLsbD 5, w.getLsbD 22 with
  | false, false, _, true => .strhImm c p u wb rn rd hi lo
  | false, false, _, false => .strhReg c p u wb rn rd lo
  | false, true, h, i => .halfwordSignedStore c p u i wb rn rd hi h lo
  | true, false, _, true => .ldrhImm c p u wb rn rd hi lo
  | true, false, _, false => .ldrhReg c p u wb rn rd lo
  | true, true, false, true => .ldrsbImm c p u wb rn rd hi lo
  | true, true, false, false => .ldrsbReg c p u wb rn rd lo
  | true, true, true, true => .ldrshImm c p u wb rn rd hi lo
  | true, true, true, false => .ldrshReg c p u wb rn rd lo

/-- PSR transfer (`45_arm_psr_transfer.md` R600): bit 25 selects the immediate operand, bit 21 MSR. -/
def decodePsrTransfer (c : Cond) (w : Word) : Instr :=
  let r := w.getLsbD 22
  let mask := w.extractLsb' 16 4
  if w.getLsbD 25 then .msrImm c r mask (w.extractLsb' 8 4) (w.extractLsb' 0 8)
  else if w.getLsbD 21 then .msrReg c r mask (w.extractLsb' 0 4)
  else .mrs c r (w.extractLsb' 12 4)

/-- Data processing, immediate operand (`30_encoding.md` R257, format A1). -/
def decodeDpImm (c : Cond) (w : Word) : Instr :=
  let sf := w.getLsbD 20
  let rn := w.extractLsb' 16 4
  let rd := w.extractLsb' 12 4
  let rot := w.extractLsb' 8 4
  let imm8 := w.extractLsb' 0 8
  match DpOp.ofBits (w.extractLsb' 21 4) with
  | .and => .andImm c sf rn rd rot imm8
  | .eor => .eorImm c sf rn rd rot imm8
  | .sub => .subImm c sf rn rd rot imm8
  | .rsb => .rsbImm c sf rn rd rot imm8
  | .add => .addImm c sf rn rd rot imm8
  | .adc => .adcImm c sf rn rd rot imm8
  | .sbc => .sbcImm c sf rn rd rot imm8
  | .rsc => .rscImm c sf rn rd rot imm8
  | .tst => .tstImm c rn rot imm8
  | .teq => .teqImm c rn rot imm8
  | .cmp => .cmpImm c rn rot imm8
  | .cmn => .cmnImm c rn rot imm8
  | .orr => .orrImm c sf rn rd rot imm8
  | .mov => .movImm c sf rd rot imm8
  | .bic => .bicImm c sf rn rd rot imm8
  | .mvn => .mvnImm c sf rd rot imm8

/-- Data processing, register with immediate shift (`30_encoding.md` R258, format A2). -/
def decodeDpImmShift (c : Cond) (w : Word) : Instr :=
  let sf := w.getLsbD 20
  let rn := w.extractLsb' 16 4
  let rd := w.extractLsb' 12 4
  let amount := w.extractLsb' 7 5
  let k := ShiftKind.ofBits (w.extractLsb' 5 2)
  let rm := w.extractLsb' 0 4
  match DpOp.ofBits (w.extractLsb' 21 4) with
  | .and => .andRegImmShift c sf rn rd amount k rm
  | .eor => .eorRegImmShift c sf rn rd amount k rm
  | .sub => .subRegImmShift c sf rn rd amount k rm
  | .rsb => .rsbRegImmShift c sf rn rd amount k rm
  | .add => .addRegImmShift c sf rn rd amount k rm
  | .adc => .adcRegImmShift c sf rn rd amount k rm
  | .sbc => .sbcRegImmShift c sf rn rd amount k rm
  | .rsc => .rscRegImmShift c sf rn rd amount k rm
  | .tst => .tstRegImmShift c rn amount k rm
  | .teq => .teqRegImmShift c rn amount k rm
  | .cmp => .cmpRegImmShift c rn amount k rm
  | .cmn => .cmnRegImmShift c rn amount k rm
  | .orr => .orrRegImmShift c sf rn rd amount k rm
  | .mov => .movRegImmShift c sf rd amount k rm
  | .bic => .bicRegImmShift c sf rn rd amount k rm
  | .mvn => .mvnRegImmShift c sf rd amount k rm

/-- Data processing, register with register shift (`30_encoding.md` R259, format A3); bit 7 is not read (R255). -/
def decodeDpRegShift (c : Cond) (w : Word) : Instr :=
  let sf := w.getLsbD 20
  let rn := w.extractLsb' 16 4
  let rd := w.extractLsb' 12 4
  let rs := w.extractLsb' 8 4
  let k := ShiftKind.ofBits (w.extractLsb' 5 2)
  let rm := w.extractLsb' 0 4
  match DpOp.ofBits (w.extractLsb' 21 4) with
  | .and => .andRegRegShift c sf rn rd rs k rm
  | .eor => .eorRegRegShift c sf rn rd rs k rm
  | .sub => .subRegRegShift c sf rn rd rs k rm
  | .rsb => .rsbRegRegShift c sf rn rd rs k rm
  | .add => .addRegRegShift c sf rn rd rs k rm
  | .adc => .adcRegRegShift c sf rn rd rs k rm
  | .sbc => .sbcRegRegShift c sf rn rd rs k rm
  | .rsc => .rscRegRegShift c sf rn rd rs k rm
  | .tst => .tstRegRegShift c rn rd rs k rm
  | .teq => .teqRegRegShift c rn rd rs k rm
  | .cmp => .cmpRegRegShift c rn rd rs k rm
  | .cmn => .cmnRegRegShift c rn rd rs k rm
  | .orr => .orrRegRegShift c sf rn rd rs k rm
  | .mov => .movRegRegShift c sf rn rd rs k rm
  | .bic => .bicRegRegShift c sf rn rd rs k rm
  | .mvn => .mvnRegRegShift c sf rn rd rs k rm

/-- Data processing: bit 25 selects the immediate operand, bit 4 the register shift (`30_encoding.md` R256). -/
def decodeDataProcessing (c : Cond) (w : Word) : Instr :=
  if w.getLsbD 25 then decodeDpImm c w
  else if w.getLsbD 4 then decodeDpRegShift c w
  else decodeDpImmShift c w

/-- The offset of a single data transfer (`30_encoding.md` R265, format A13): bit 25 is I. -/
def decodeSdtOffset (w : Word) : SdtOffset :=
  if w.getLsbD 25 then .reg (w.extractLsb' 7 5) (ShiftKind.ofBits (w.extractLsb' 5 2)) (w.extractLsb' 0 4)
  else .imm (w.extractLsb' 0 12)

/-- Single data transfer (`30_encoding.md` R265): P = 0 with W = 1 is the T form; B is bit 22, L bit 20. -/
def decodeSingleTransfer (c : Cond) (w : Word) : Instr :=
  let p := w.getLsbD 24
  let u := w.getLsbD 23
  let wb := w.getLsbD 21
  let rn := w.extractLsb' 16 4
  let rd := w.extractLsb' 12 4
  let off := decodeSdtOffset w
  match !p && wb, w.getLsbD 22, w.getLsbD 20 with
  | true, false, false => .strt c u rn rd off
  | true, false, true => .ldrt c u rn rd off
  | true, true, false => .strbt c u rn rd off
  | true, true, true => .ldrbt c u rn rd off
  | false, false, false => .str c p u wb rn rd off
  | false, false, true => .ldr c p u wb rn rd off
  | false, true, false => .strb c p u wb rn rd off
  | false, true, true => .ldrb c p u wb rn rd off

/-- Block data transfer (`30_encoding.md` R266, format A15): P is bit 24, U bit 23, L bit 20. -/
def decodeBlockTransfer (c : Cond) (w : Word) : Instr :=
  let sb := w.getLsbD 22
  let wb := w.getLsbD 21
  let rn := w.extractLsb' 16 4
  let list := w.extractLsb' 0 16
  match w.getLsbD 24, w.getLsbD 23, w.getLsbD 20 with
  | false, false, false => .stmda c sb wb rn list
  | false, false, true => .ldmda c sb wb rn list
  | false, true, false => .stmia c sb wb rn list
  | false, true, true => .ldmia c sb wb rn list
  | true, false, false => .stmdb c sb wb rn list
  | true, false, true => .ldmdb c sb wb rn list
  | true, true, false => .stmib c sb wb rn list
  | true, true, true => .ldmib c sb wb rn list

/-- A word of the undefined row 8: everything but the bits the row fixes. -/
def decodeUndefinedRow8 (c : Cond) (w : Word) : Instr :=
  .undefinedRow8 c (w.extractLsb' 5 20) (w.extractLsb' 0 4)

/-- The coprocessor transfer space (`30_encoding.md` R267, format A17). -/
def decodeCoprocTransfer (c : Cond) (w : Word) : Instr :=
  .ldcStcUndefined c (w.getLsbD 24) (w.getLsbD 23) (w.getLsbD 22) (w.getLsbD 21) (w.getLsbD 20)
    (w.extractLsb' 16 4) (w.extractLsb' 12 4) (w.extractLsb' 8 4) (w.extractLsb' 0 8)

/-- CDP (`30_encoding.md` R267, format A18). -/
def decodeCoprocOperation (c : Cond) (w : Word) : Instr :=
  .cdp c (w.extractLsb' 20 4) (w.extractLsb' 16 4) (w.extractLsb' 12 4) (w.extractLsb' 8 4) (w.extractLsb' 5 3)
    (w.extractLsb' 0 4)

/-- MCR and MRC (`30_encoding.md` R267, format A19): bit 20 is L. -/
def decodeCoprocRegister (c : Cond) (w : Word) : Instr :=
  let op1 := w.extractLsb' 21 3
  let crn := w.extractLsb' 16 4
  let rd := w.extractLsb' 12 4
  let cp := w.extractLsb' 8 4
  let op2 := w.extractLsb' 5 3
  let crm := w.extractLsb' 0 4
  if w.getLsbD 20 then .mrc c op1 crn rd cp op2 crm else .mcr c op1 crn rd cp op2 crm

/-- The instruction an ARM word spells (`30_encoding.md` R252, R253). -/
def decodeArm (w : Word) : Instr :=
  let c := Cond.ofBits (w.extractLsb' 28 4)
  match armCategory (armIndex w) with
  | .branchExchange => .bx c (w.extractLsb' 0 4)
  | .multiply => decodeMultiply c w
  | .multiplyLong => decodeMultiplyLong c w
  | .singleDataSwap => decodeSwap c w
  | .halfwordDataTransfer => decodeHalfword c w
  | .psrTransfer => decodePsrTransfer c w
  | .dataProcessing => decodeDataProcessing c w
  | .undefinedRow8 => decodeUndefinedRow8 c w
  | .singleDataTransfer => decodeSingleTransfer c w
  | .blockDataTransfer => decodeBlockTransfer c w
  | .branch => if w.getLsbD 24 then .bl c (w.extractLsb' 0 24) else .b c (w.extractLsb' 0 24)
  | .undefinedRow12 => decodeCoprocTransfer c w
  | .coprocessorDataOperation => decodeCoprocOperation c w
  | .coprocessorRegisterTransfer => decodeCoprocRegister c w
  | .softwareInterrupt => .swi c (w.extractLsb' 0 24)
  -- no index reaches row 16 (R253), which goes to the Undefined handler
  | .undefinedRow16 => decodeUndefinedRow8 c w

/-! ### Thumb -/

/-- The handler categories of `30_encoding.md` R271, by format. -/
inductive ThumbCategory where
  | addSubtract
  | moveShiftedRegister
  | immediate
  | aluOperations
  | hiRegisterOperations
  | pcRelativeLoad
  | loadStoreRegisterOffset
  | loadStoreSignExtended
  | loadStoreImmediateOffset
  | loadStoreHalfword
  | spRelativeLoadStore
  | loadAddress
  | addOffsetToSp
  | pushPopRegisters
  | multipleLoadStore
  | softwareInterrupt
  | conditionalBranch
  | unconditionalBranch
  | longBranchWithLink
  | undefined
  deriving DecidableEq, Repr

/-- The Thumb decode index `instr[15:6]` (`30_encoding.md` R270). -/
def thumbIndex (h : Half) : BitVec 10 := h.extractLsb' 6 10

/-- The Thumb decode table (`30_encoding.md` R271): the first row whose predicate holds. -/
def thumbCategory (idx : BitVec 10) : ThumbCategory :=
  if idx &&& 0x3E0#10 = 0x060#10 then .addSubtract
  else if idx &&& 0x380#10 = 0x000#10 then .moveShiftedRegister
  else if idx &&& 0x380#10 = 0x080#10 then .immediate
  else if idx &&& 0x3F0#10 = 0x100#10 then .aluOperations
  else if idx &&& 0x3F0#10 = 0x110#10 then .hiRegisterOperations
  else if idx &&& 0x3E0#10 = 0x120#10 then .pcRelativeLoad
  else if idx &&& 0x3C8#10 = 0x140#10 then .loadStoreRegisterOffset
  else if idx &&& 0x3C8#10 = 0x148#10 then .loadStoreSignExtended
  else if idx &&& 0x380#10 = 0x180#10 then .loadStoreImmediateOffset
  else if idx &&& 0x3C0#10 = 0x200#10 then .loadStoreHalfword
  else if idx &&& 0x3C0#10 = 0x240#10 then .spRelativeLoadStore
  else if idx &&& 0x3C0#10 = 0x280#10 then .loadAddress
  else if idx &&& 0x3FC#10 = 0x2C0#10 then .addOffsetToSp
  else if idx &&& 0x3D8#10 = 0x2D0#10 then .pushPopRegisters
  else if idx &&& 0x3C0#10 = 0x300#10 then .multipleLoadStore
  else if idx &&& 0x3FC#10 = 0x37C#10 then .softwareInterrupt
  else if idx &&& 0x3C0#10 = 0x340#10 ∧ idx &&& 0x03C#10 ≠ 0x038#10 then .conditionalBranch
  else if idx &&& 0x3E0#10 = 0x380#10 then .unconditionalBranch
  else if idx &&& 0x3C0#10 = 0x3C0#10 then .longBranchWithLink
  else .undefined

/-- Format T2 (`30_encoding.md` R275): bit 10 is I, bit 9 the subtraction. -/
def decodeT2 (h : Half) : Instr :=
  let x := h.extractLsb' 6 3
  let rs := h.extractLsb' 3 3
  let rd := h.extractLsb' 0 3
  match h.getLsbD 10, h.getLsbD 9 with
  | false, false => .tAddReg x rs rd
  | false, true => .tSubReg x rs rd
  | true, false => .tAddImm3 x rs rd
  | true, true => .tSubImm3 x rs rd

/-- Format T1 (`30_encoding.md` R275): bits 12:11 choose the shift; 11 is format T2's. -/
def decodeT1 (h : Half) : Instr :=
  let amount := h.extractLsb' 6 5
  let rs := h.extractLsb' 3 3
  let rd := h.extractLsb' 0 3
  match h.getLsbD 12, h.getLsbD 11 with
  | false, false => .tLslImm amount rs rd
  | false, true => .tLsrImm amount rs rd
  | true, _ => .tAsrImm amount rs rd

/-- Format T3 (`30_encoding.md` R275). -/
def decodeT3 (h : Half) : Instr :=
  let rd := h.extractLsb' 8 3
  let imm8 := h.extractLsb' 0 8
  match h.getLsbD 12, h.getLsbD 11 with
  | false, false => .tMovImm rd imm8
  | false, true => .tCmpImm rd imm8
  | true, false => .tAddImm8 rd imm8
  | true, true => .tSubImm8 rd imm8

/-- Format T4 (`30_encoding.md` R275): bits 9:6 are the operation. -/
def decodeT4 (h : Half) : Instr :=
  let rs := h.extractLsb' 3 3
  let rd := h.extractLsb' 0 3
  match h.getLsbD 9, h.getLsbD 8, h.getLsbD 7, h.getLsbD 6 with
  | false, false, false, false => .tAnd rs rd
  | false, false, false, true => .tEor rs rd
  | false, false, true, false => .tLslReg rs rd
  | false, false, true, true => .tLsrReg rs rd
  | false, true, false, false => .tAsrReg rs rd
  | false, true, false, true => .tAdc rs rd
  | false, true, true, false => .tSbc rs rd
  | false, true, true, true => .tRor rs rd
  | true, false, false, false => .tTst rs rd
  | true, false, false, true => .tNeg rs rd
  | true, false, true, false => .tCmpReg rs rd
  | true, false, true, true => .tCmn rs rd
  | true, true, false, false => .tOrr rs rd
  | true, true, false, true => .tMul rs rd
  | true, true, true, false => .tBic rs rd
  | true, true, true, true => .tMvn rs rd

/-- Format T5 (`30_encoding.md` R275): bits 9:8 are the operation, bit 7 is H1, bit 6 is H2. -/
def decodeT5 (h : Half) : Instr :=
  let h1 := h.getLsbD 7
  let h2 := h.getLsbD 6
  let rs := h.extractLsb' 3 3
  let rd := h.extractLsb' 0 3
  match h.getLsbD 9, h.getLsbD 8 with
  | false, false => .tAddHi h1 h2 rs rd
  | false, true => .tCmpHi h1 h2 rs rd
  | true, false => .tMovHi h1 h2 rs rd
  | true, true => .tBx h1 h2 rs rd

/-- Formats T7 and T8 (`30_encoding.md` R275): bit 9 is 0 in T7 and 1 in T8; bits 11 and 10 are L and B, or H and S. -/
def decodeT7T8 (h : Half) : Instr :=
  let ro := h.extractLsb' 6 3
  let rb := h.extractLsb' 3 3
  let rd := h.extractLsb' 0 3
  match h.getLsbD 9, h.getLsbD 11, h.getLsbD 10 with
  | false, false, false => .tStrReg ro rb rd
  | false, false, true => .tStrbReg ro rb rd
  | false, true, false => .tLdrReg ro rb rd
  | false, true, true => .tLdrbReg ro rb rd
  | true, false, false => .tStrhReg ro rb rd
  | true, false, true => .tLdsb ro rb rd
  | true, true, false => .tLdrhReg ro rb rd
  | true, true, true => .tLdsh ro rb rd

/-- Format T9 (`30_encoding.md` R275): bit 12 is B, bit 11 is L. -/
def decodeT9 (h : Half) : Instr :=
  let off5 := h.extractLsb' 6 5
  let rb := h.extractLsb' 3 3
  let rd := h.extractLsb' 0 3
  match h.getLsbD 12, h.getLsbD 11 with
  | false, false => .tStrImm off5 rb rd
  | false, true => .tLdrImm off5 rb rd
  | true, false => .tStrbImm off5 rb rd
  | true, true => .tLdrbImm off5 rb rd

/-- Format T10 (`30_encoding.md` R275): bit 11 is L. -/
def decodeT10 (h : Half) : Instr :=
  let off5 := h.extractLsb' 6 5
  let rb := h.extractLsb' 3 3
  let rd := h.extractLsb' 0 3
  if h.getLsbD 11 then .tLdrhImm off5 rb rd else .tStrhImm off5 rb rd

/-- The rest of `30_encoding.md` R271 row 20: 1101_1110, 11101, and the gaps of 1011. -/
def decodeThumbUndefined (h : Half) : Instr :=
  if h.getLsbD 14 then
    if h.getLsbD 13 then .tUndefinedE8 (h.extractLsb' 0 11) else .tUndefinedDe (h.extractLsb' 0 8)
  else .tUndefinedB (h.extractLsb' 0 12)

/-- The instruction a Thumb halfword spells (`30_encoding.md` R270, R271, R276). -/
def decodeThumb (h : Half) : Instr :=
  let rd := h.extractLsb' 8 3
  let imm8 := h.extractLsb' 0 8
  match thumbCategory (thumbIndex h) with
  | .addSubtract => decodeT2 h
  | .moveShiftedRegister => decodeT1 h
  | .immediate => decodeT3 h
  | .aluOperations => decodeT4 h
  | .hiRegisterOperations => decodeT5 h
  | .pcRelativeLoad => .tLdrPc rd imm8
  | .loadStoreRegisterOffset => decodeT7T8 h
  | .loadStoreSignExtended => decodeT7T8 h
  | .loadStoreImmediateOffset => decodeT9 h
  | .loadStoreHalfword => decodeT10 h
  | .spRelativeLoadStore => if h.getLsbD 11 then .tLdrSp rd imm8 else .tStrSp rd imm8
  | .loadAddress => if h.getLsbD 11 then .tAddSpRd rd imm8 else .tAddPc rd imm8
  | .addOffsetToSp => if h.getLsbD 7 then .tSubSpImm (h.extractLsb' 0 7) else .tAddSpImm (h.extractLsb' 0 7)
  | .pushPopRegisters => if h.getLsbD 11 then .tPop (h.getLsbD 8) imm8 else .tPush (h.getLsbD 8) imm8
  | .multipleLoadStore => if h.getLsbD 11 then .tLdmia rd imm8 else .tStmia rd imm8
  | .softwareInterrupt => .tSwi imm8
  | .conditionalBranch => .tBCond (Cond.ofBits (h.extractLsb' 8 4)) imm8
  | .unconditionalBranch => .tB (h.extractLsb' 0 11)
  | .longBranchWithLink => if h.getLsbD 11 then .tBlSecond (h.extractLsb' 0 11) else .tBlFirst (h.extractLsb' 0 11)
  | .undefined => decodeThumbUndefined h

/-! ### Bytes -/

/-- Why bytes spell no instruction. Every whole word does (`30_encoding.md` R254, R272), so the one reason is that
there are too few of them. -/
inductive DecodeError where
  | truncated
  deriving DecidableEq, Repr

/-- The instruction at the head of a byte sequence, low byte first (`20_memory.md` R152), and the rest; the encoding is
the one T selects (`30_encoding.md` R251). -/
def decodeBytes (thumb : Bool) : List Byte → Except DecodeError (Instr × List Byte)
  | b0 :: b1 :: rest =>
    if thumb then .ok (decodeThumb (b1 ++ b0), rest)
    else
      match rest with
      | b2 :: b3 :: rest' => .ok (decodeArm (b3 ++ b2 ++ b1 ++ b0), rest')
      | _ => .error .truncated
  | _ => .error .truncated

/-- The bytes of a word of `n` bytes, lowest address first. -/
def layOut : Nat → Nat → List Byte
  | 0, _ => []
  | n + 1, w => BitVec.ofNat 8 w :: layOut n (w / 256)

/-- The decoder on a word numbered as `opcode_table.json` numbers it: a 32-bit row is an ARM word, a 16-bit row a Thumb
halfword. -/
def decodeTableWord (nbits w : Nat) : Option Instr :=
  if nbits = 32 then
    match decodeBytes false (layOut 4 w) with
    | .ok (i, _) => some i
    | .error _ => none
  else if nbits = 16 then
    match decodeBytes true (layOut 2 w) with
    | .ok (i, _) => some i
    | .error _ => none
  else none

/-! ### Encoder -/

/-- An encoded instruction: an ARM word or a Thumb halfword. -/
inductive Encoding where
  | arm (w : Word)
  | thumb (h : Half)
  deriving DecidableEq, Repr

/-- The instruction an encoding spells. -/
def decode : Encoding → Instr
  | .arm w => decodeArm w
  | .thumb h => decodeThumb h

/-- The code of a condition (`40_pipeline.md` R363). -/
def Cond.bits : Cond → BitVec 4
  | .eq => 0b0000#4
  | .ne => 0b0001#4
  | .cs => 0b0010#4
  | .cc => 0b0011#4
  | .mi => 0b0100#4
  | .pl => 0b0101#4
  | .vs => 0b0110#4
  | .vc => 0b0111#4
  | .hi => 0b1000#4
  | .ls => 0b1001#4
  | .ge => 0b1010#4
  | .lt => 0b1011#4
  | .gt => 0b1100#4
  | .le => 0b1101#4
  | .al => 0b1110#4
  | .nv => 0b1111#4

/-- The code of a shift kind (`30_encoding.md` R260). -/
def ShiftKind.bits : ShiftKind → BitVec 2
  | .lsl => 0b00#2
  | .lsr => 0b01#2
  | .asr => 0b10#2
  | .ror => 0b11#2

/-- A one-bit field. -/
def bit (b : Bool) : BitVec 1 := BitVec.ofBool b

/-- Format A7 (`30_encoding.md` R262). -/
def encA7 (acc : BitVec 1) (c : Cond) (sf : Bool) (rd rn rs rm : Reg) : Word :=
  c.bits ++ 0b000000#6 ++ acc ++ bit sf ++ rd ++ rn ++ rs ++ 0b1001#4 ++ rm

/-- Format A8 (`30_encoding.md` R262). -/
def encA8 (ua : BitVec 2) (c : Cond) (sf : Bool) (rdHi rdLo rs rm : Reg) : Word :=
  c.bits ++ 0b00001#5 ++ ua ++ bit sf ++ rdHi ++ rdLo ++ rs ++ 0b1001#4 ++ rm

/-- Format A9 (`30_encoding.md` R263). -/
def encA9 (byte : BitVec 1) (c : Cond) (rn rd rm : Reg) : Word :=
  c.bits ++ 0b00010#5 ++ byte ++ 0b00#2 ++ rn ++ rd ++ 0b0000#4 ++ 0b1001#4 ++ rm

/-- Formats A11 and A12 (`30_encoding.md` R264): `hi` and `lo` are bits 11:8 and 3:0. -/
def encHalfword (load : BitVec 1) (sh : BitVec 2) (c : Cond) (p u i w : Bool) (rn rd hi lo : BitVec 4) : Word :=
  c.bits ++ 0b000#3 ++ bit p ++ bit u ++ bit i ++ bit w ++ load ++ rn ++ rd ++ hi ++ 0b1#1 ++ sh ++ 0b1#1 ++ lo

/-- Format A1 (`30_encoding.md` R257). -/
def encA1 (op : BitVec 4) (c : Cond) (sf : Bool) (rn rd : Reg) (rot : BitVec 4) (imm8 : BitVec 8) : Word :=
  c.bits ++ 0b001#3 ++ op ++ bit sf ++ rn ++ rd ++ rot ++ imm8

/-- Format A2 (`30_encoding.md` R258). -/
def encA2 (op : BitVec 4) (c : Cond) (sf : Bool) (rn rd : Reg) (amount : BitVec 5) (k : ShiftKind) (rm : Reg) : Word :=
  c.bits ++ 0b000#3 ++ op ++ bit sf ++ rn ++ rd ++ amount ++ k.bits ++ 0b0#1 ++ rm

/-- Format A3 (`30_encoding.md` R259). -/
def encA3 (op : BitVec 4) (c : Cond) (sf : Bool) (rn rd rs : Reg) (k : ShiftKind) (rm : Reg) : Word :=
  c.bits ++ 0b000#3 ++ op ++ bit sf ++ rn ++ rd ++ rs ++ 0b0#1 ++ k.bits ++ 0b1#1 ++ rm

/-- The I bit of an offset, and its twelve low bits (`30_encoding.md` R265). -/
def SdtOffset.iBit : SdtOffset → BitVec 1
  | .imm _ => 0b0#1
  | .reg _ _ _ => 0b1#1

/-- Bits 11:0 of a single data transfer (`30_encoding.md` R265). -/
def SdtOffset.bits : SdtOffset → BitVec 12
  | .imm offset12 => offset12
  | .reg amount k rm => amount ++ k.bits ++ 0b0#1 ++ rm

/-- Format A13 (`30_encoding.md` R265). -/
def encA13 (byte load : BitVec 1) (c : Cond) (p u w : Bool) (rn rd : Reg) (off : SdtOffset) : Word :=
  c.bits ++ 0b01#2 ++ off.iBit ++ bit p ++ bit u ++ byte ++ bit w ++ load ++ rn ++ rd ++ off.bits

/-- Format A15 (`30_encoding.md` R266): `pu` is P and U. -/
def encA15 (pu : BitVec 2) (load : BitVec 1) (c : Cond) (sb w : Bool) (rn : Reg) (list : BitVec 16) : Word :=
  c.bits ++ 0b100#3 ++ pu ++ bit sb ++ bit w ++ load ++ rn ++ list

/-- Format A19 (`30_encoding.md` R267). -/
def encA19 (load : BitVec 1) (c : Cond) (op1 : BitVec 3) (crn rd cp : BitVec 4) (op2 : BitVec 3) (crm : BitVec 4) : Word :=
  c.bits ++ 0b1110#4 ++ op1 ++ load ++ crn ++ rd ++ cp ++ op2 ++ 0b1#1 ++ crm

/-- The canonical encoding of an instruction, from `30_encoding.md` R257 to R267, R275 and R276: the bits R255 leaves
unchecked as the formats print them, and the fields no rule reads (S and Rd of the comparisons, Rn of MOV and MVN) as
ARMv4T writes them (notes/assumptions/14.md). -/
def encode : Instr → Encoding
  | .bx c rm => .arm (c.bits ++ 0b00010010#8 ++ 0xFFF#12 ++ 0b0001#4 ++ rm)
  | .mul c sf rd rs rm => .arm (encA7 0b0#1 c sf rd 0#4 rs rm)
  | .mla c sf rd rn rs rm => .arm (encA7 0b1#1 c sf rd rn rs rm)
  | .umull c sf rdHi rdLo rs rm => .arm (encA8 0b00#2 c sf rdHi rdLo rs rm)
  | .umlal c sf rdHi rdLo rs rm => .arm (encA8 0b01#2 c sf rdHi rdLo rs rm)
  | .smull c sf rdHi rdLo rs rm => .arm (encA8 0b10#2 c sf rdHi rdLo rs rm)
  | .smlal c sf rdHi rdLo rs rm => .arm (encA8 0b11#2 c sf rdHi rdLo rs rm)
  | .swp c rn rd rm => .arm (encA9 0b0#1 c rn rd rm)
  | .swpb c rn rd rm => .arm (encA9 0b1#1 c rn rd rm)
  | .strhImm c p u w rn rd immHi immLo => .arm (encHalfword 0b0#1 0b01#2 c p u true w rn rd immHi immLo)
  | .strhReg c p u w rn rd rm => .arm (encHalfword 0b0#1 0b01#2 c p u false w rn rd 0#4 rm)
  | .ldrhImm c p u w rn rd immHi immLo => .arm (encHalfword 0b1#1 0b01#2 c p u true w rn rd immHi immLo)
  | .ldrhReg c p u w rn rd rm => .arm (encHalfword 0b1#1 0b01#2 c p u false w rn rd 0#4 rm)
  | .ldrsbImm c p u w rn rd immHi immLo => .arm (encHalfword 0b1#1 0b10#2 c p u true w rn rd immHi immLo)
  | .ldrsbReg c p u w rn rd rm => .arm (encHalfword 0b1#1 0b10#2 c p u false w rn rd 0#4 rm)
  | .ldrshImm c p u w rn rd immHi immLo => .arm (encHalfword 0b1#1 0b11#2 c p u true w rn rd immHi immLo)
  | .ldrshReg c p u w rn rd rm => .arm (encHalfword 0b1#1 0b11#2 c p u false w rn rd 0#4 rm)
  | .halfwordSignedStore c p u i w rn rd hi h lo => .arm (encHalfword 0b0#1 (0b1#1 ++ bit h) c p u i w rn rd hi lo)
  | .mrs c r rd => .arm (c.bits ++ 0b00010#5 ++ bit r ++ 0b00#2 ++ 0b1111#4 ++ rd ++ 0x000#12)
  | .msrReg c r mask rm => .arm (c.bits ++ 0b00010#5 ++ bit r ++ 0b10#2 ++ mask ++ 0b1111#4 ++ 0x00#8 ++ rm)
  | .msrImm c r mask rot imm8 => .arm (c.bits ++ 0b00110#5 ++ bit r ++ 0b10#2 ++ mask ++ 0b1111#4 ++ rot ++ imm8)
  | .andImm c sf rn rd rot imm8 => .arm (encA1 0b0000#4 c sf rn rd rot imm8)
  | .andRegImmShift c sf rn rd amount k rm => .arm (encA2 0b0000#4 c sf rn rd amount k rm)
  | .andRegRegShift c sf rn rd rs k rm => .arm (encA3 0b0000#4 c sf rn rd rs k rm)
  | .eorImm c sf rn rd rot imm8 => .arm (encA1 0b0001#4 c sf rn rd rot imm8)
  | .eorRegImmShift c sf rn rd amount k rm => .arm (encA2 0b0001#4 c sf rn rd amount k rm)
  | .eorRegRegShift c sf rn rd rs k rm => .arm (encA3 0b0001#4 c sf rn rd rs k rm)
  | .subImm c sf rn rd rot imm8 => .arm (encA1 0b0010#4 c sf rn rd rot imm8)
  | .subRegImmShift c sf rn rd amount k rm => .arm (encA2 0b0010#4 c sf rn rd amount k rm)
  | .subRegRegShift c sf rn rd rs k rm => .arm (encA3 0b0010#4 c sf rn rd rs k rm)
  | .rsbImm c sf rn rd rot imm8 => .arm (encA1 0b0011#4 c sf rn rd rot imm8)
  | .rsbRegImmShift c sf rn rd amount k rm => .arm (encA2 0b0011#4 c sf rn rd amount k rm)
  | .rsbRegRegShift c sf rn rd rs k rm => .arm (encA3 0b0011#4 c sf rn rd rs k rm)
  | .addImm c sf rn rd rot imm8 => .arm (encA1 0b0100#4 c sf rn rd rot imm8)
  | .addRegImmShift c sf rn rd amount k rm => .arm (encA2 0b0100#4 c sf rn rd amount k rm)
  | .addRegRegShift c sf rn rd rs k rm => .arm (encA3 0b0100#4 c sf rn rd rs k rm)
  | .adcImm c sf rn rd rot imm8 => .arm (encA1 0b0101#4 c sf rn rd rot imm8)
  | .adcRegImmShift c sf rn rd amount k rm => .arm (encA2 0b0101#4 c sf rn rd amount k rm)
  | .adcRegRegShift c sf rn rd rs k rm => .arm (encA3 0b0101#4 c sf rn rd rs k rm)
  | .sbcImm c sf rn rd rot imm8 => .arm (encA1 0b0110#4 c sf rn rd rot imm8)
  | .sbcRegImmShift c sf rn rd amount k rm => .arm (encA2 0b0110#4 c sf rn rd amount k rm)
  | .sbcRegRegShift c sf rn rd rs k rm => .arm (encA3 0b0110#4 c sf rn rd rs k rm)
  | .rscImm c sf rn rd rot imm8 => .arm (encA1 0b0111#4 c sf rn rd rot imm8)
  | .rscRegImmShift c sf rn rd amount k rm => .arm (encA2 0b0111#4 c sf rn rd amount k rm)
  | .rscRegRegShift c sf rn rd rs k rm => .arm (encA3 0b0111#4 c sf rn rd rs k rm)
  | .tstImm c rn rot imm8 => .arm (encA1 0b1000#4 c true rn 0#4 rot imm8)
  | .tstRegImmShift c rn amount k rm => .arm (encA2 0b1000#4 c true rn 0#4 amount k rm)
  | .tstRegRegShift c rn rd rs k rm => .arm (encA3 0b1000#4 c true rn rd rs k rm)
  | .teqImm c rn rot imm8 => .arm (encA1 0b1001#4 c true rn 0#4 rot imm8)
  | .teqRegImmShift c rn amount k rm => .arm (encA2 0b1001#4 c true rn 0#4 amount k rm)
  | .teqRegRegShift c rn rd rs k rm => .arm (encA3 0b1001#4 c true rn rd rs k rm)
  | .cmpImm c rn rot imm8 => .arm (encA1 0b1010#4 c true rn 0#4 rot imm8)
  | .cmpRegImmShift c rn amount k rm => .arm (encA2 0b1010#4 c true rn 0#4 amount k rm)
  | .cmpRegRegShift c rn rd rs k rm => .arm (encA3 0b1010#4 c true rn rd rs k rm)
  | .cmnImm c rn rot imm8 => .arm (encA1 0b1011#4 c true rn 0#4 rot imm8)
  | .cmnRegImmShift c rn amount k rm => .arm (encA2 0b1011#4 c true rn 0#4 amount k rm)
  | .cmnRegRegShift c rn rd rs k rm => .arm (encA3 0b1011#4 c true rn rd rs k rm)
  | .orrImm c sf rn rd rot imm8 => .arm (encA1 0b1100#4 c sf rn rd rot imm8)
  | .orrRegImmShift c sf rn rd amount k rm => .arm (encA2 0b1100#4 c sf rn rd amount k rm)
  | .orrRegRegShift c sf rn rd rs k rm => .arm (encA3 0b1100#4 c sf rn rd rs k rm)
  | .movImm c sf rd rot imm8 => .arm (encA1 0b1101#4 c sf 0#4 rd rot imm8)
  | .movRegImmShift c sf rd amount k rm => .arm (encA2 0b1101#4 c sf 0#4 rd amount k rm)
  | .movRegRegShift c sf rn rd rs k rm => .arm (encA3 0b1101#4 c sf rn rd rs k rm)
  | .bicImm c sf rn rd rot imm8 => .arm (encA1 0b1110#4 c sf rn rd rot imm8)
  | .bicRegImmShift c sf rn rd amount k rm => .arm (encA2 0b1110#4 c sf rn rd amount k rm)
  | .bicRegRegShift c sf rn rd rs k rm => .arm (encA3 0b1110#4 c sf rn rd rs k rm)
  | .mvnImm c sf rd rot imm8 => .arm (encA1 0b1111#4 c sf 0#4 rd rot imm8)
  | .mvnRegImmShift c sf rd amount k rm => .arm (encA2 0b1111#4 c sf 0#4 rd amount k rm)
  | .mvnRegRegShift c sf rn rd rs k rm => .arm (encA3 0b1111#4 c sf rn rd rs k rm)
  | .undefinedRow8 c upper lower => .arm (c.bits ++ 0b011#3 ++ upper ++ 0b1#1 ++ lower)
  | .strt c u rn rd off => .arm (encA13 0b0#1 0b0#1 c false u true rn rd off)
  | .ldrt c u rn rd off => .arm (encA13 0b0#1 0b1#1 c false u true rn rd off)
  | .strbt c u rn rd off => .arm (encA13 0b1#1 0b0#1 c false u true rn rd off)
  | .ldrbt c u rn rd off => .arm (encA13 0b1#1 0b1#1 c false u true rn rd off)
  | .str c p u w rn rd off => .arm (encA13 0b0#1 0b0#1 c p u w rn rd off)
  | .ldr c p u w rn rd off => .arm (encA13 0b0#1 0b1#1 c p u w rn rd off)
  | .strb c p u w rn rd off => .arm (encA13 0b1#1 0b0#1 c p u w rn rd off)
  | .ldrb c p u w rn rd off => .arm (encA13 0b1#1 0b1#1 c p u w rn rd off)
  | .stmda c sb w rn list => .arm (encA15 0b00#2 0b0#1 c sb w rn list)
  | .ldmda c sb w rn list => .arm (encA15 0b00#2 0b1#1 c sb w rn list)
  | .stmia c sb w rn list => .arm (encA15 0b01#2 0b0#1 c sb w rn list)
  | .ldmia c sb w rn list => .arm (encA15 0b01#2 0b1#1 c sb w rn list)
  | .stmdb c sb w rn list => .arm (encA15 0b10#2 0b0#1 c sb w rn list)
  | .ldmdb c sb w rn list => .arm (encA15 0b10#2 0b1#1 c sb w rn list)
  | .stmib c sb w rn list => .arm (encA15 0b11#2 0b0#1 c sb w rn list)
  | .ldmib c sb w rn list => .arm (encA15 0b11#2 0b1#1 c sb w rn list)
  | .b c imm24 => .arm (c.bits ++ 0b1010#4 ++ imm24)
  | .bl c imm24 => .arm (c.bits ++ 0b1011#4 ++ imm24)
  | .ldcStcUndefined c p u n w l rn crd cp off => .arm (c.bits ++ 0b110#3 ++ bit p ++ bit u ++ bit n ++ bit w ++ bit l ++ rn ++ crd ++ cp ++ off)
  | .cdp c op1 crn crd cp op2 crm => .arm (c.bits ++ 0b1110#4 ++ op1 ++ crn ++ crd ++ cp ++ op2 ++ 0b0#1 ++ crm)
  | .mcr c op1 crn rd cp op2 crm => .arm (encA19 0b0#1 c op1 crn rd cp op2 crm)
  | .mrc c op1 crn rd cp op2 crm => .arm (encA19 0b1#1 c op1 crn rd cp op2 crm)
  | .swi c comment => .arm (c.bits ++ 0b1111#4 ++ comment)
  | .tAddReg rn rs rd => .thumb (0b0001100#7 ++ rn ++ rs ++ rd)
  | .tSubReg rn rs rd => .thumb (0b0001101#7 ++ rn ++ rs ++ rd)
  | .tAddImm3 imm3 rs rd => .thumb (0b0001110#7 ++ imm3 ++ rs ++ rd)
  | .tSubImm3 imm3 rs rd => .thumb (0b0001111#7 ++ imm3 ++ rs ++ rd)
  | .tLslImm amount rs rd => .thumb (0b00000#5 ++ amount ++ rs ++ rd)
  | .tLsrImm amount rs rd => .thumb (0b00001#5 ++ amount ++ rs ++ rd)
  | .tAsrImm amount rs rd => .thumb (0b00010#5 ++ amount ++ rs ++ rd)
  | .tMovImm rd imm8 => .thumb (0b00100#5 ++ rd ++ imm8)
  | .tCmpImm rd imm8 => .thumb (0b00101#5 ++ rd ++ imm8)
  | .tAddImm8 rd imm8 => .thumb (0b00110#5 ++ rd ++ imm8)
  | .tSubImm8 rd imm8 => .thumb (0b00111#5 ++ rd ++ imm8)
  | .tAnd rs rd => .thumb (0b0100000000#10 ++ rs ++ rd)
  | .tEor rs rd => .thumb (0b0100000001#10 ++ rs ++ rd)
  | .tLslReg rs rd => .thumb (0b0100000010#10 ++ rs ++ rd)
  | .tLsrReg rs rd => .thumb (0b0100000011#10 ++ rs ++ rd)
  | .tAsrReg rs rd => .thumb (0b0100000100#10 ++ rs ++ rd)
  | .tAdc rs rd => .thumb (0b0100000101#10 ++ rs ++ rd)
  | .tSbc rs rd => .thumb (0b0100000110#10 ++ rs ++ rd)
  | .tRor rs rd => .thumb (0b0100000111#10 ++ rs ++ rd)
  | .tTst rs rd => .thumb (0b0100001000#10 ++ rs ++ rd)
  | .tNeg rs rd => .thumb (0b0100001001#10 ++ rs ++ rd)
  | .tCmpReg rs rd => .thumb (0b0100001010#10 ++ rs ++ rd)
  | .tCmn rs rd => .thumb (0b0100001011#10 ++ rs ++ rd)
  | .tOrr rs rd => .thumb (0b0100001100#10 ++ rs ++ rd)
  | .tMul rs rd => .thumb (0b0100001101#10 ++ rs ++ rd)
  | .tBic rs rd => .thumb (0b0100001110#10 ++ rs ++ rd)
  | .tMvn rs rd => .thumb (0b0100001111#10 ++ rs ++ rd)
  | .tAddHi h1 h2 rs rd => .thumb (0b01000100#8 ++ bit h1 ++ bit h2 ++ rs ++ rd)
  | .tCmpHi h1 h2 rs rd => .thumb (0b01000101#8 ++ bit h1 ++ bit h2 ++ rs ++ rd)
  | .tMovHi h1 h2 rs rd => .thumb (0b01000110#8 ++ bit h1 ++ bit h2 ++ rs ++ rd)
  | .tBx h1 h2 rs rd => .thumb (0b01000111#8 ++ bit h1 ++ bit h2 ++ rs ++ rd)
  | .tLdrPc rd word8 => .thumb (0b01001#5 ++ rd ++ word8)
  | .tStrReg ro rb rd => .thumb (0b0101000#7 ++ ro ++ rb ++ rd)
  | .tStrbReg ro rb rd => .thumb (0b0101010#7 ++ ro ++ rb ++ rd)
  | .tLdrReg ro rb rd => .thumb (0b0101100#7 ++ ro ++ rb ++ rd)
  | .tLdrbReg ro rb rd => .thumb (0b0101110#7 ++ ro ++ rb ++ rd)
  | .tStrhReg ro rb rd => .thumb (0b0101001#7 ++ ro ++ rb ++ rd)
  | .tLdsb ro rb rd => .thumb (0b0101011#7 ++ ro ++ rb ++ rd)
  | .tLdrhReg ro rb rd => .thumb (0b0101101#7 ++ ro ++ rb ++ rd)
  | .tLdsh ro rb rd => .thumb (0b0101111#7 ++ ro ++ rb ++ rd)
  | .tStrImm off5 rb rd => .thumb (0b01100#5 ++ off5 ++ rb ++ rd)
  | .tLdrImm off5 rb rd => .thumb (0b01101#5 ++ off5 ++ rb ++ rd)
  | .tStrbImm off5 rb rd => .thumb (0b01110#5 ++ off5 ++ rb ++ rd)
  | .tLdrbImm off5 rb rd => .thumb (0b01111#5 ++ off5 ++ rb ++ rd)
  | .tStrhImm off5 rb rd => .thumb (0b10000#5 ++ off5 ++ rb ++ rd)
  | .tLdrhImm off5 rb rd => .thumb (0b10001#5 ++ off5 ++ rb ++ rd)
  | .tStrSp rd word8 => .thumb (0b10010#5 ++ rd ++ word8)
  | .tLdrSp rd word8 => .thumb (0b10011#5 ++ rd ++ word8)
  | .tAddPc rd word8 => .thumb (0b10100#5 ++ rd ++ word8)
  | .tAddSpRd rd word8 => .thumb (0b10101#5 ++ rd ++ word8)
  | .tAddSpImm sword7 => .thumb (0b101100000#9 ++ sword7)
  | .tSubSpImm sword7 => .thumb (0b101100001#9 ++ sword7)
  | .tPush r rlist => .thumb (0b1011010#7 ++ bit r ++ rlist)
  | .tPop r rlist => .thumb (0b1011110#7 ++ bit r ++ rlist)
  | .tStmia rb rlist => .thumb (0b11000#5 ++ rb ++ rlist)
  | .tLdmia rb rlist => .thumb (0b11001#5 ++ rb ++ rlist)
  | .tSwi value8 => .thumb (0b11011111#8 ++ value8)
  | .tUndefinedDe payload => .thumb (0b11011110#8 ++ payload)
  | .tBCond c soff8 => .thumb (0b1101#4 ++ c.bits ++ soff8)
  | .tB off11 => .thumb (0b11100#5 ++ off11)
  | .tUndefinedE8 payload => .thumb (0b11101#5 ++ payload)
  | .tBlFirst off11 => .thumb (0b11110#5 ++ off11)
  | .tBlSecond off11 => .thumb (0b11111#5 ++ off11)
  | .tUndefinedB payload => .thumb (0b1011#4 ++ payload)

end Sys2Proof
end

