-- ==== Sys2Proof/Machine/Pipeline.lean ====
section
/-!
DEFINITION. The pipeline: fetch, advance, flush, priming, interrupts, and the step around an instruction's meaning
(`40_pipeline.md` R350 to R362, `60_exceptions.md` R908).
-/

namespace Sys2Proof.Machine

/-- The program counter moved past one instruction of the active encoding (`40_pipeline.md` R356). -/
def bumpPc (s : State) : State := { s with regs := s.regs.write .pc (s.regs.pc + width s.cpsr) }

/-- `Fetch32(PC)`, then `PC <- PC + 4` (`40_pipeline.md` R355, R357). -/
def fetchArm (s : State) : Word × State :=
  let r := fetch32 s.regs.pc s
  (r.1, bumpPc r.2)

/-- `Fetch16(PC)`, then `PC <- PC + 2` (`40_pipeline.md` R355, R357). -/
def fetchThumb (s : State) : Half × State :=
  let r := fetch16 s.regs.pc s
  (r.1, bumpPc r.2)

/-- `advance` (`40_pipeline.md` R355). -/
def advance (s : State) : State :=
  if s.cpsr.t then
    let r := fetchThumb s
    { r.2 with thFetched := some r.1, thExecuting := r.2.thDecoding, thDecoding := some r.1 }
  else
    let r := fetchArm s
    { r.2 with armFetched := some r.1, armExecuting := r.2.armDecoding, armDecoding := some r.1 }

/-- `flush` (`40_pipeline.md` R357). -/
def flush (s : State) : State :=
  if s.cpsr.t then
    let x := fetchThumb s
    let d := fetchThumb x.2
    { d.2 with thFetched := none, thExecuting := some x.1, thDecoding := some d.1, flushFlag := true }
  else
    let x := fetchArm s
    let d := fetchArm x.2
    { d.2 with armFetched := none, armExecuting := some x.1, armDecoding := some d.1, flushFlag := true }

/-- `initializeForExecution` (`40_pipeline.md` R351, `70_reset_and_hazards.md` R954). -/
def initializeForExecution (s : State) : State := { flush s with flushFlag := false, primed := true }

/-- The interrupt that is pending and unmasked: FIQ before IRQ (`60_exceptions.md` R904, R908). -/
def pendingInterrupt (s : State) : Option Exception :=
  if s.fiqLine && !s.cpsr.f then some .fiq
  else if s.irqLine && !s.cpsr.i then some .irq
  else none

/-- The instruction in the executing slot of the active encoding (`40_pipeline.md` R352). -/
def executingInstr (s : State) : Option Instr :=
  if s.cpsr.t then s.thExecuting.map decodeThumb else s.armExecuting.map decodeArm

/-- What a step does before its end: an interrupt, or the executing instruction (`40_pipeline.md` R352,
`60_exceptions.md` R908). -/
def dispatch (run : Instr → State → Answer) (s : State) : Answer :=
  let execute : Answer :=
    match executingInstr s with
    | some i => run i s
    | none => .fault (stop .pipelineNotPrimed s)
  match s.config.excPolicy, pendingInterrupt s with
  | .trap, some e => .next (enterException e s)
  | .fault, some _ => .fault (stop .interruptNotModelled s)
  | .noop, some _ => execute
  | _, none => execute

/-- The end of a step: the flush that was requested, then the advance unless a flush came (`40_pipeline.md` R352,
R354, R359). The step's variable `flushRequested` ends with it. -/
def finishStep (s : State) : State :=
  let s1 := { (if s.flushRequested then flush s else s) with flushRequested := false }
  if s1.flushFlag then { s1 with flushFlag := false } else advance s1

/-- `step` around the meanings `run` (`40_pipeline.md` R352, R353, R376). After a recorded fault no step runs: the state
and the fault stay. -/
def stepWith (run : Instr → State → Answer) (s : State) : Answer :=
  match s.faulted with
  | some r => .fault (stop r s)
  | none =>
    if s.primed then
      match dispatch run { s with flushRequested := false } with
      | .next s' => .next (finishStep s')
      | .fault f => .fault f
      | .refused r => .refused r
    else .fault (stop .pipelineNotPrimed s)

/-! ### Placing an instruction -/

/-- Store a byte where a fetch at `a` would read it, whatever the boot-ROM lock. -/
def placeByte (a : Word) (b : Byte) (s : State) : State :=
  let r := regionOf a
  if backed s r (offsetIn r a) then { s with mem := s.mem.write (r.base + offsetIn r a) b } else s

/-- Store bytes at rising addresses where fetches would read them. -/
def placeBytes : Word → List Byte → State → State
  | _, [], s => s
  | a, b :: bs, s => placeBytes (a + 1) bs (placeByte a b s)

/-- `s` with one instruction of `nbits` bits placed at its program counter and the pipeline primed on it: the load of
`70_reset_and_hazards.md` R955 steps 2 to 4 for a program of one instruction, with the interrupt lines
quiet and no fault recorded (notes/assumptions/13.md). -/
def placeInstruction (nbits w : Nat) (s : State) : State :=
  let thumb := nbits == 16
  let quiet := { s with cpsr := { s.cpsr with t := thumb }, irqLine := false, fiqLine := false, faulted := none }
  let placed := placeBytes quiet.regs.pc (layOut (if thumb then 2 else 4) w) quiet
  let primed := initializeForExecution placed
  if thumb then { primed with thExecuting := some (BitVec.ofNat 16 w) }
  else { primed with armExecuting := some (BitVec.ofNat 32 w) }

end Sys2Proof.Machine
end

