-- ==== Sys2Proof/Machine/HostOps.lean ====
section
/-!
DEFINITION. What the host can do between steps: construction, the loads, the bus reset, the launch writes and the
inspection (`70_reset_and_hazards.md` R950 to R954, R970 to R972).
-/

namespace Sys2Proof.Machine

/-- The I/O array at `IO_DEFAULTS`, over a memory that lists no I/O byte (`20_memory.md` R171). -/
def ioReset (cfg : Config) (m : Memory) : Memory := Memory.writeList m Region.io.base (cfg.ioDefaults.take 0x400)

/-- Construction under a choice of the open parameters (`70_reset_and_hazards.md` R950). -/
def State.construct (cfg : Config) (n z c v : Bool) : State :=
  { State.reset with config := cfg, cpsr := Psr.atReset n z c v, mem := ioReset cfg [] }

/-- A storage address of the boot-ROM array (`20_memory.md` R156). -/
def isBootCell (k : Nat) : Bool := decide (k < 0x4000)

/-- A storage address of the cartridge-ROM buffer (`20_memory.md` R156, R165). -/
def isRomCell (k : Nat) : Bool := decide (0x08000000 ≤ k) && decide (k < 0x0A000000)

/-- `reset()`, the memory bus reset (`70_reset_and_hazards.md` R951). -/
def busReset (s : State) : State :=
  { s with
    mem := ioReset s.config (s.mem.filter fun c => isBootCell c.1 || isRomCell c.1)
    openBusLatch := 0 }

/-- `loadBootImage` (`70_reset_and_hazards.md` R952). -/
def loadBootImage (bytes : List Byte) (s : State) : State :=
  { s with
    mem := Memory.writeList (s.mem.filter fun c => !isBootCell c.1) Region.bios.base (bytes.take 0x4000)
    bootLoaded := min bytes.length 0x4000 }

/-- `loadProgramImage` (`70_reset_and_hazards.md` R953). The bytes past offset 0x01FFFFFF, which no address reaches
(`20_memory.md` R165), are not stored (notes/assumptions/11.md). -/
def loadProgramImage (bytes : List Byte) (s : State) : State :=
  { s with
    mem := Memory.writeList (s.mem.filter fun c => !isRomCell c.1) Region.rom.base (bytes.take 0x02000000)
    romSize := bytes.length }

/-- `setBiosLocked` (`70_reset_and_hazards.md` R971). -/
def setBiosLocked (b : Bool) (s : State) : State := { s with biosLocked := b }

/-- The levels of the interrupt lines for the next step (`60_exceptions.md` R908). -/
def setLines (irq fiq : Bool) (s : State) : State := { s with irqLine := irq, fiqLine := fiq }

/-- `hostWriteRegister` (`70_reset_and_hazards.md` R971): index 15 stores without alignment or flush. None where the
host may not call it (notes/assumptions/16.md). -/
def hostWriteRegister (i : Nat) (v : Word) (s : State) : Option State :=
  if s.primed then none
  else
    match resolve s.cpsr.mode i with
    | .ok c => some { s with regs := s.regs.write c v }
    | .error _ => none

/-- `hostWriteCpsr` (`70_reset_and_hazards.md` R971): the whole word. None after priming (notes/assumptions/16.md). -/
def hostWriteCpsr (v : Word) (s : State) : Option State :=
  if s.primed then none else some { s with cpsr := Psr.ofWord v }

/-- `inspectRegister` (`70_reset_and_hazards.md` R971). None is 'no such register', or an index without a word under
the current mode code (notes/assumptions/17.md). -/
def inspectRegister (i : Nat) (s : State) : Option Word :=
  match resolve s.cpsr.mode i with
  | .ok c => some (s.regs.read c)
  | .error _ => none

/-- `inspectCpsr` (`70_reset_and_hazards.md` R971). -/
def inspectCpsr (s : State) : Word := s.cpsr.toWord

/-- `inspectSpsr` (`70_reset_and_hazards.md` R971). -/
def inspectSpsr (s : State) : Word := (getSpsr s).toWord

end Sys2Proof.Machine
end

