-- ==== Sys2Proof/Machine/Step.lean ====
section
/-!
DEFINITION. One step of the machine (`40_pipeline.md` R352), and a state with a given instruction to run next.
-/

namespace Sys2Proof.Machine

/-- `step` (`40_pipeline.md` R352). -/
def step (s : State) : Host.Outcome State Fault Refusal := stepWith exec s

/-- `s` with the instruction of `nbits` bits `w` placed where the next step runs it (notes/assumptions/13.md). -/
def State.withFetchWord (s : State) (nbits w : Nat) : State := placeInstruction nbits w s

end Sys2Proof.Machine
end

