-- ==== Sys2Proof/Machine/Run.lean ====
section
/-!
DEFINITION. A run and its end, and the launch premises a claim may take (`70_reset_and_hazards.md` R970, R972 to R974).
-/

namespace Sys2Proof.Machine

/-! ### What the host does between steps -/

/-- A host call between two steps (`70_reset_and_hazards.md` R954, R970, R972). -/
inductive HostCall where
  | loadBootImage (bytes : List Byte)
  | loadProgramImage (bytes : List Byte)
  | reset
  | setBiosLocked (b : Bool)
  | initializeForExecution
  deriving DecidableEq, Repr

/-- The effect of a host call. -/
def HostCall.apply (k : HostCall) (s : State) : State :=
  match k with
  | .loadBootImage bytes => Sys2Proof.Machine.loadBootImage bytes s
  | .loadProgramImage bytes => Sys2Proof.Machine.loadProgramImage bytes s
  | .reset => busReset s
  | .setBiosLocked b => Sys2Proof.Machine.setBiosLocked b s
  | .initializeForExecution => Sys2Proof.Machine.initializeForExecution s

/-- One call of `step()`: the host's calls since the last one, and the levels of the lines held for this one
(`70_reset_and_hazards.md` R970). -/
structure StepCall where
  calls : List HostCall
  irq : Bool
  fiq : Bool
  deriving DecidableEq, Repr

/-- The state at the start of the step. -/
def StepCall.start (k : StepCall) (s : State) : State :=
  setLines k.irq k.fiq (k.calls.foldl (fun t call => call.apply t) s)

/-! ### The end of a run (`70_reset_and_hazards.md` R973) -/

/-- The executing slot holds the unconditional branch to itself: 0xEAFFFFFE, or 0xE7FE in Thumb state. -/
def executingIsSelfBranch (s : State) : Bool :=
  if s.cpsr.t then s.thExecuting == some 0xE7FE#16 else s.armExecuting == some 0xEAFFFFFE#32

/-- The step about to run would execute a self-branch: under `Trap` no interrupt is pending and unmasked. The premise
`PC = A + 2w` of R973 holds of every primed state (`40_pipeline.md` R365). -/
def atSelfBranch (s : State) : Bool :=
  executingIsSelfBranch s && (s.config.excPolicy != .trap || (pendingInterrupt s).isNone)

/-- How a run ends: its event, and its end state. -/
inductive RunEnd where
  /-- Event 1: the fault, its reason and the state the faulting step left. -/
  | fault (f : Fault)
  /-- Event 2: the state at the start of the step that would execute the self-branch. -/
  | selfBranch (s : State)
  /-- Event 3: the host stops calling `step()`. Not an end the spec defines: the state so far. -/
  | hostStopped (s : State)
  /-- A step without a meaning. No instruction has none. -/
  | refused (r : Refusal)
  deriving DecidableEq, Repr

/-- A run: the states that `step()` produces, in order, and the end. -/
structure Run where
  states : List State
  last : RunEnd
  deriving DecidableEq, Repr

/-- The run of the host's step calls from a launched state, to the first of the three events. -/
def runFrom : List StepCall → State → Run
  | [], s => { states := [], last := .hostStopped s }
  | k :: ks, s =>
    let s0 := k.start s
    if s0.primed && s0.faulted.isNone && atSelfBranch s0 then { states := [], last := .selfBranch s0 }
    else
      match step s0 with
      | .next t =>
        let r := runFrom ks t
        { r with states := t :: r.states }
      | .fault f => { states := [], last := .fault f }
      | .refused r => { states := [], last := .refused r }

/-! ### Launch premises (`70_reset_and_hazards.md` R974) -/

/-- `NoFault`: no fault has been recorded. -/
def NoFault (s : State) : Prop := s.faulted = none

/-- `FreshReset`: the state of R950, followed only by loads, `setBiosLocked` and launch writes. -/
inductive FreshReset : State → Prop where
  | construct (cfg : Config) (n z c v : Bool) : FreshReset (State.construct cfg n z c v)
  | loadBootImage {s : State} (bytes : List Byte) : FreshReset s → FreshReset (loadBootImage bytes s)
  | loadProgramImage {s : State} (bytes : List Byte) : FreshReset s → FreshReset (loadProgramImage bytes s)
  | setBiosLocked {s : State} (b : Bool) : FreshReset s → FreshReset (setBiosLocked b s)
  | writeRegister {s t : State} (i : Nat) (v : Word) :
      FreshReset s → hostWriteRegister i v s = some t → FreshReset t
  | writeCpsr {s t : State} (v : Word) : FreshReset s → hostWriteCpsr v s = some t → FreshReset t

/-- `LaunchAligned`: PC[1:0] = 00 in ARM state, PC[0] = 0 in Thumb state. -/
def LaunchAligned (s : State) : Prop :=
  if s.cpsr.t then s.regs.pc.extractLsb' 0 1 = 0 else s.regs.pc.extractLsb' 0 2 = 0

/-- `LaunchModeValid`: one of the seven mode codes. -/
def LaunchModeValid (s : State) : Prop := validMode s.cpsr.mode = true

/-- `RegistersWritten(S)`: every register word in `S` holds a value. It holds of every state, because RESET_FILL is
fixed at `Zero` (notes/assumptions/2.md). -/
def RegistersWritten (S : List RegCell) (s : State) : Prop := ∀ c ∈ S, ∃ v, s.regs.read c = v

/-- `LinesQuiet`: both lines are false at every step of the run. -/
def LinesQuiet (ks : List StepCall) : Prop := ∀ k ∈ ks, k.irq = false ∧ k.fiq = false

end Sys2Proof.Machine
end

