-- ==== Sys2Proof/Safety.lean ====
section
/-!
DEFINITION. What claims speak of: the invariants of a step, and the instructions, values and bytes the spec names (the
rules each cites).
-/

namespace Sys2Proof.Machine

/-! ### Invariants -/

/-- Both lines are low. -/
def LinesLow (s : State) : Prop := s.irqLine = false ∧ s.fiqLine = false

/-- The memory is in its canonical form. -/
def MemCanonical (s : State) : Prop := s.mem.wf = true

/-- The program counter is aligned to the active width (`44_arm_branch.md` R556, `20_memory.md` R190). -/
def PcAligned (s : State) : Prop := alignPc s.cpsr.t s.regs.pc = s.regs.pc

/-- In a primed machine the executing and decoding slots of the active encoding hold an instruction (`40_pipeline.md`
R355, R357). -/
def SlotsLive (s : State) : Prop :=
  s.primed = true →
    if s.cpsr.t then s.thExecuting.isSome = true ∧ s.thDecoding.isSome = true
    else s.armExecuting.isSome = true ∧ s.armDecoding.isSome = true

/-- The flags of a flush are down between steps (`40_pipeline.md` R352, R354). -/
def FlushQuiet (s : State) : Prop := s.flushFlag = false ∧ s.flushRequested = false

/-- What every step keeps. -/
def Inv (s : State) : Prop := MemCanonical s ∧ PcAligned s ∧ SlotsLive s ∧ FlushQuiet s

/-! ### Registers and bytes -/

/-- The word a low register is (`10_state.md` R62, `49_thumb.md` R801). -/
def lowCell (i : LowReg) : RegCell :=
  match i.toNat with
  | 0 => .r0
  | 1 => .r1
  | 2 => .r2
  | 3 => .r3
  | 4 => .r4
  | 5 => .r5
  | 6 => .r6
  | _ => .r7

/-- Index `i` names the register word `c` (`10_state.md` R62). Where the mode code is invalid, indices 13 and 14 name
none (R65). -/
def Names (s : State) (i : Reg) (c : RegCell) : Prop := resolve s.cpsr.mode i.toNat = .ok c

/-- The storage addresses of a byte write at each of the `n` addresses from `a` on (`20_memory.md` R172). -/
def storedCells (s : State) (a : Word) (n : Nat) : List Nat :=
  (List.range n).filterMap fun j => writeCell s (a + BitVec.ofNat 32 j)

/-- A saved status word replaced in its bank; User and System have none (`10_state.md` R66). -/
def SpsrBank.saveIn (b : SpsrBank) (k : Bank) (p : Psr) : SpsrBank :=
  match k with
  | .usr => b
  | .fiq => { b with fiq := p }
  | .irq => { b with irq := p }
  | .svc => { b with svc := p }
  | .abt => { b with abt := p }
  | .und => { b with und := p }

/-- The words of `n` aligned loads at rising addresses, and the state after them (`20_memory.md` R189). -/
def loadWords : Nat → Word → State → List Word × State
  | 0, _, s => ([], s)
  | n + 1, a, s =>
    let v := memReadAligned a s
    let r := loadWords n (a + 4) v.2
    (v.1 :: r.1, r.2)

/-- Aligned stores of words at rising addresses (`20_memory.md` R189). -/
def storeWords : List Word → Word → State → State
  | [], _, s => s
  | v :: vs, a, s => storeWords vs (a + 4) (memWriteAligned a v s)

/-- Each word into the register word at its place in the list. -/
def writeAll : List RegCell → List Word → RegBank → RegBank
  | c :: cs, v :: vs, b => writeAll cs vs (b.write c v)
  | _, _, b => b

/-! ### Results and flags in exact arithmetic (`41_shifter_alu.md` R416 to R419) -/

/-- Whether an integer is a 32-bit signed number. -/
def fitsSigned (x : Int) : Bool := decide (-(2 ^ 31) ≤ x) && decide (x < 2 ^ 31)

/-- 1 if the flag is set, else 0. -/
def flagWord (c : Bool) : Word := if c then 1 else 0

/-- What an opcode computes of `a` and operand 2 `b`, the flag C being `c` (`42_arm_data_processing.md` R460 to R475). -/
def exactResult (op : DpOp) (a b : Word) (c : Bool) : Word :=
  match op with
  | .and | .tst => a &&& b
  | .eor | .teq => a ^^^ b
  | .sub | .cmp => a - b
  | .rsb => b - a
  | .add | .cmn => a + b
  | .adc => a + b + flagWord c
  | .sbc => a - b - flagWord (!c)
  | .rsc => b - a - flagWord (!c)
  | .orr => a ||| b
  | .mov => b
  | .bic => a &&& ~~~b
  | .mvn => ~~~b

/-- The carry an opcode leaves: of a logical one the shifter's `shc`, of an addition the carry out of 32 bits, of a
subtraction the absence of a borrow (`41_shifter_alu.md` R417 to R419). -/
def exactCarry (op : DpOp) (a b : Word) (c shc : Bool) : Bool :=
  match op with
  | .and | .tst | .eor | .teq | .orr | .mov | .bic | .mvn => shc
  | .sub | .cmp => decide (b.toNat ≤ a.toNat)
  | .rsb => decide (a.toNat ≤ b.toNat)
  | .add | .cmn => decide (2 ^ 32 ≤ a.toNat + b.toNat)
  | .adc => decide (2 ^ 32 ≤ a.toNat + b.toNat + c.toNat)
  | .sbc => decide (b.toNat + (!c).toNat ≤ a.toNat)
  | .rsc => decide (a.toNat + (!c).toNat ≤ b.toNat)

/-- The overflow an opcode leaves: of a logical one the old flag `v`, of an arithmetic one whether the exact signed
result does not fit (`41_shifter_alu.md` R416, R419). -/
def exactOverflow (op : DpOp) (a b : Word) (c v : Bool) : Bool :=
  match op with
  | .and | .tst | .eor | .teq | .orr | .mov | .bic | .mvn => v
  | .sub | .cmp => !fitsSigned (a.toInt - b.toInt)
  | .rsb => !fitsSigned (b.toInt - a.toInt)
  | .add | .cmn => !fitsSigned (a.toInt + b.toInt)
  | .adc => !fitsSigned (a.toInt + b.toInt + c.toNat)
  | .sbc => !fitsSigned (a.toInt - b.toInt - (!c).toNat)
  | .rsc => !fitsSigned (b.toInt - a.toInt - (!c).toNat)

/-- The status word `p` with the flags of an opcode's result, the carry-in being `p`'s C. -/
def exactFlags (op : DpOp) (a b : Word) (shc : Bool) (p : Psr) : Psr :=
  { p with
    n := (exactResult op a b p.c).getLsbD 31
    z := decide (exactResult op a b p.c = 0)
    c := exactCarry op a b p.c shc
    v := exactOverflow op a b p.c p.v }

/-! ### Operands as the spec names them -/

/-- Operand 2 of a data-processing instruction is `x` (`41_shifter_alu.md` R413). -/
def Operand2Is (o : Operand2) (s : State) (x : Shifted) : Prop :=
  match o with
  | .imm rot imm8 => x = expandImm imm8 rot s.cpsr.c
  | .immShift amount k rm => ∃ cm, Names s rm cm ∧ x = shiftImm k amount (s.regs.read cm) s.cpsr.c
  | .regShift rs k rm =>
    ∃ cm cs, Names s rm cm ∧ Names s rs cs ∧ x = shiftReg k (lowByte (s.regs.read cs)) (s.regs.read cm) s.cpsr.c

/-- The offset of a single data transfer is `x` (`43_arm_single_transfer.md` R501). -/
def SdtOffsetIs (o : SdtOffset) (s : State) (x : Word) : Prop :=
  match o with
  | .imm offset12 => x = offset12.zeroExtend 32
  | .reg amount k rm => rm ≠ 15 ∧ ∃ cm, Names s rm cm ∧ x = (shiftImm k amount (s.regs.read cm) s.cpsr.c).value

/-- The offset of a halfword or signed transfer is `x` (`47_arm_swap_halfword.md` R710). -/
def HalfOffsetIs (o : HalfOffset) (s : State) (x : Word) : Prop :=
  match o with
  | .imm hi lo => x = BitVec.ofNat 32 (16 * hi.toNat + lo.toNat)
  | .reg rm => rm ≠ 15 ∧ ∃ cm, Names s rm cm ∧ x = s.regs.read cm

/-- A base moved by an offset, up or down (`43_arm_single_transfer.md` R502). -/
def movedBase (u : Bool) (base offset : Word) : Word := if u then base + offset else base - offset

/-- The lowest address of a block of `k` words (`48_arm_block_coproc_swi.md` R751). -/
def firstAddress (m : BlockMode) (base : Word) (k : Nat) : Word :=
  match m with
  | .ia => base
  | .ib => base + 4
  | .da => base - BitVec.ofNat 32 (4 * k) + 4
  | .db => base - BitVec.ofNat 32 (4 * k)

/-- The base after a block of `k` words (`48_arm_block_coproc_swi.md` R751). -/
def finalBase (m : BlockMode) (base : Word) (k : Nat) : Word :=
  match m with
  | .ia | .ib => base + BitVec.ofNat 32 (4 * k)
  | .da | .db => base - BitVec.ofNat 32 (4 * k)

/-! ### Instructions by their operands -/

/-- The condition field of an ARM instruction (`40_pipeline.md` R352); a Thumb instruction has none. -/
def armCond : Instr → Option Cond
  | .bx c _ => some c
  | .mul c _ _ _ _ => some c
  | .mla c _ _ _ _ _ => some c
  | .umull c _ _ _ _ _ => some c
  | .umlal c _ _ _ _ _ => some c
  | .smull c _ _ _ _ _ => some c
  | .smlal c _ _ _ _ _ => some c
  | .swp c _ _ _ => some c
  | .swpb c _ _ _ => some c
  | .strhImm c _ _ _ _ _ _ _ => some c
  | .strhReg c _ _ _ _ _ _ => some c
  | .ldrhImm c _ _ _ _ _ _ _ => some c
  | .ldrhReg c _ _ _ _ _ _ => some c
  | .ldrsbImm c _ _ _ _ _ _ _ => some c
  | .ldrsbReg c _ _ _ _ _ _ => some c
  | .ldrshImm c _ _ _ _ _ _ _ => some c
  | .ldrshReg c _ _ _ _ _ _ => some c
  | .halfwordSignedStore c _ _ _ _ _ _ _ _ _ => some c
  | .mrs c _ _ => some c
  | .msrReg c _ _ _ => some c
  | .msrImm c _ _ _ _ => some c
  | .andImm c _ _ _ _ _ => some c
  | .andRegImmShift c _ _ _ _ _ _ => some c
  | .andRegRegShift c _ _ _ _ _ _ => some c
  | .eorImm c _ _ _ _ _ => some c
  | .eorRegImmShift c _ _ _ _ _ _ => some c
  | .eorRegRegShift c _ _ _ _ _ _ => some c
  | .subImm c _ _ _ _ _ => some c
  | .subRegImmShift c _ _ _ _ _ _ => some c
  | .subRegRegShift c _ _ _ _ _ _ => some c
  | .rsbImm c _ _ _ _ _ => some c
  | .rsbRegImmShift c _ _ _ _ _ _ => some c
  | .rsbRegRegShift c _ _ _ _ _ _ => some c
  | .addImm c _ _ _ _ _ => some c
  | .addRegImmShift c _ _ _ _ _ _ => some c
  | .addRegRegShift c _ _ _ _ _ _ => some c
  | .adcImm c _ _ _ _ _ => some c
  | .adcRegImmShift c _ _ _ _ _ _ => some c
  | .adcRegRegShift c _ _ _ _ _ _ => some c
  | .sbcImm c _ _ _ _ _ => some c
  | .sbcRegImmShift c _ _ _ _ _ _ => some c
  | .sbcRegRegShift c _ _ _ _ _ _ => some c
  | .rscImm c _ _ _ _ _ => some c
  | .rscRegImmShift c _ _ _ _ _ _ => some c
  | .rscRegRegShift c _ _ _ _ _ _ => some c
  | .tstImm c _ _ _ => some c
  | .tstRegImmShift c _ _ _ _ => some c
  | .tstRegRegShift c _ _ _ _ _ => some c
  | .teqImm c _ _ _ => some c
  | .teqRegImmShift c _ _ _ _ => some c
  | .teqRegRegShift c _ _ _ _ _ => some c
  | .cmpImm c _ _ _ => some c
  | .cmpRegImmShift c _ _ _ _ => some c
  | .cmpRegRegShift c _ _ _ _ _ => some c
  | .cmnImm c _ _ _ => some c
  | .cmnRegImmShift c _ _ _ _ => some c
  | .cmnRegRegShift c _ _ _ _ _ => some c
  | .orrImm c _ _ _ _ _ => some c
  | .orrRegImmShift c _ _ _ _ _ _ => some c
  | .orrRegRegShift c _ _ _ _ _ _ => some c
  | .movImm c _ _ _ _ => some c
  | .movRegImmShift c _ _ _ _ _ => some c
  | .movRegRegShift c _ _ _ _ _ _ => some c
  | .bicImm c _ _ _ _ _ => some c
  | .bicRegImmShift c _ _ _ _ _ _ => some c
  | .bicRegRegShift c _ _ _ _ _ _ => some c
  | .mvnImm c _ _ _ _ => some c
  | .mvnRegImmShift c _ _ _ _ _ => some c
  | .mvnRegRegShift c _ _ _ _ _ _ => some c
  | .undefinedRow8 c _ _ => some c
  | .strt c _ _ _ _ => some c
  | .ldrt c _ _ _ _ => some c
  | .strbt c _ _ _ _ => some c
  | .ldrbt c _ _ _ _ => some c
  | .str c _ _ _ _ _ _ => some c
  | .ldr c _ _ _ _ _ _ => some c
  | .strb c _ _ _ _ _ _ => some c
  | .ldrb c _ _ _ _ _ _ => some c
  | .stmda c _ _ _ _ => some c
  | .ldmda c _ _ _ _ => some c
  | .stmia c _ _ _ _ => some c
  | .ldmia c _ _ _ _ => some c
  | .stmdb c _ _ _ _ => some c
  | .ldmdb c _ _ _ _ => some c
  | .stmib c _ _ _ _ => some c
  | .ldmib c _ _ _ _ => some c
  | .b c _ => some c
  | .bl c _ => some c
  | .ldcStcUndefined c _ _ _ _ _ _ _ _ _ => some c
  | .cdp c _ _ _ _ _ _ => some c
  | .mcr c _ _ _ _ _ _ => some c
  | .mrc c _ _ _ _ _ _ => some c
  | .swi c _ => some c
  | .tAddReg _ _ _ => none
  | .tSubReg _ _ _ => none
  | .tAddImm3 _ _ _ => none
  | .tSubImm3 _ _ _ => none
  | .tLslImm _ _ _ => none
  | .tLsrImm _ _ _ => none
  | .tAsrImm _ _ _ => none
  | .tMovImm _ _ => none
  | .tCmpImm _ _ => none
  | .tAddImm8 _ _ => none
  | .tSubImm8 _ _ => none
  | .tAnd _ _ => none
  | .tEor _ _ => none
  | .tLslReg _ _ => none
  | .tLsrReg _ _ => none
  | .tAsrReg _ _ => none
  | .tAdc _ _ => none
  | .tSbc _ _ => none
  | .tRor _ _ => none
  | .tTst _ _ => none
  | .tNeg _ _ => none
  | .tCmpReg _ _ => none
  | .tCmn _ _ => none
  | .tOrr _ _ => none
  | .tMul _ _ => none
  | .tBic _ _ => none
  | .tMvn _ _ => none
  | .tAddHi _ _ _ _ => none
  | .tCmpHi _ _ _ _ => none
  | .tMovHi _ _ _ _ => none
  | .tBx _ _ _ _ => none
  | .tLdrPc _ _ => none
  | .tStrReg _ _ _ => none
  | .tStrbReg _ _ _ => none
  | .tLdrReg _ _ _ => none
  | .tLdrbReg _ _ _ => none
  | .tStrhReg _ _ _ => none
  | .tLdsb _ _ _ => none
  | .tLdrhReg _ _ _ => none
  | .tLdsh _ _ _ => none
  | .tStrImm _ _ _ => none
  | .tLdrImm _ _ _ => none
  | .tStrbImm _ _ _ => none
  | .tLdrbImm _ _ _ => none
  | .tStrhImm _ _ _ => none
  | .tLdrhImm _ _ _ => none
  | .tStrSp _ _ => none
  | .tLdrSp _ _ => none
  | .tAddPc _ _ => none
  | .tAddSpRd _ _ => none
  | .tAddSpImm _ => none
  | .tSubSpImm _ => none
  | .tPush _ _ => none
  | .tPop _ _ => none
  | .tStmia _ _ => none
  | .tLdmia _ _ => none
  | .tSwi _ => none
  | .tUndefinedDe _ => none
  | .tBCond _ _ => none
  | .tB _ => none
  | .tUndefinedE8 _ => none
  | .tBlFirst _ => none
  | .tBlSecond _ => none
  | .tUndefinedB _ => none

/-- The data-processing instruction of an opcode and an operand 2, in the constructor of its table row. A comparison has
no S bit; outside format A3 a comparison has no Rd and a move no Rn. -/
def dpInstr (op : DpOp) (c : Cond) (sf : Bool) (rn rd : Reg) (o : Operand2) : Instr :=
  match op, o with
  | .and, .imm rot imm8 => .andImm c sf rn rd rot imm8
  | .and, .immShift amount k rm => .andRegImmShift c sf rn rd amount k rm
  | .and, .regShift rs k rm => .andRegRegShift c sf rn rd rs k rm
  | .eor, .imm rot imm8 => .eorImm c sf rn rd rot imm8
  | .eor, .immShift amount k rm => .eorRegImmShift c sf rn rd amount k rm
  | .eor, .regShift rs k rm => .eorRegRegShift c sf rn rd rs k rm
  | .sub, .imm rot imm8 => .subImm c sf rn rd rot imm8
  | .sub, .immShift amount k rm => .subRegImmShift c sf rn rd amount k rm
  | .sub, .regShift rs k rm => .subRegRegShift c sf rn rd rs k rm
  | .rsb, .imm rot imm8 => .rsbImm c sf rn rd rot imm8
  | .rsb, .immShift amount k rm => .rsbRegImmShift c sf rn rd amount k rm
  | .rsb, .regShift rs k rm => .rsbRegRegShift c sf rn rd rs k rm
  | .add, .imm rot imm8 => .addImm c sf rn rd rot imm8
  | .add, .immShift amount k rm => .addRegImmShift c sf rn rd amount k rm
  | .add, .regShift rs k rm => .addRegRegShift c sf rn rd rs k rm
  | .adc, .imm rot imm8 => .adcImm c sf rn rd rot imm8
  | .adc, .immShift amount k rm => .adcRegImmShift c sf rn rd amount k rm
  | .adc, .regShift rs k rm => .adcRegRegShift c sf rn rd rs k rm
  | .sbc, .imm rot imm8 => .sbcImm c sf rn rd rot imm8
  | .sbc, .immShift amount k rm => .sbcRegImmShift c sf rn rd amount k rm
  | .sbc, .regShift rs k rm => .sbcRegRegShift c sf rn rd rs k rm
  | .rsc, .imm rot imm8 => .rscImm c sf rn rd rot imm8
  | .rsc, .immShift amount k rm => .rscRegImmShift c sf rn rd amount k rm
  | .rsc, .regShift rs k rm => .rscRegRegShift c sf rn rd rs k rm
  | .tst, .imm rot imm8 => .tstImm c rn rot imm8
  | .tst, .immShift amount k rm => .tstRegImmShift c rn amount k rm
  | .tst, .regShift rs k rm => .tstRegRegShift c rn rd rs k rm
  | .teq, .imm rot imm8 => .teqImm c rn rot imm8
  | .teq, .immShift amount k rm => .teqRegImmShift c rn amount k rm
  | .teq, .regShift rs k rm => .teqRegRegShift c rn rd rs k rm
  | .cmp, .imm rot imm8 => .cmpImm c rn rot imm8
  | .cmp, .immShift amount k rm => .cmpRegImmShift c rn amount k rm
  | .cmp, .regShift rs k rm => .cmpRegRegShift c rn rd rs k rm
  | .cmn, .imm rot imm8 => .cmnImm c rn rot imm8
  | .cmn, .immShift amount k rm => .cmnRegImmShift c rn amount k rm
  | .cmn, .regShift rs k rm => .cmnRegRegShift c rn rd rs k rm
  | .orr, .imm rot imm8 => .orrImm c sf rn rd rot imm8
  | .orr, .immShift amount k rm => .orrRegImmShift c sf rn rd amount k rm
  | .orr, .regShift rs k rm => .orrRegRegShift c sf rn rd rs k rm
  | .mov, .imm rot imm8 => .movImm c sf rd rot imm8
  | .mov, .immShift amount k rm => .movRegImmShift c sf rd amount k rm
  | .mov, .regShift rs k rm => .movRegRegShift c sf rn rd rs k rm
  | .bic, .imm rot imm8 => .bicImm c sf rn rd rot imm8
  | .bic, .immShift amount k rm => .bicRegImmShift c sf rn rd amount k rm
  | .bic, .regShift rs k rm => .bicRegRegShift c sf rn rd rs k rm
  | .mvn, .imm rot imm8 => .mvnImm c sf rd rot imm8
  | .mvn, .immShift amount k rm => .mvnRegImmShift c sf rd amount k rm
  | .mvn, .regShift rs k rm => .mvnRegRegShift c sf rn rd rs k rm

/-- The single data transfers: P = 0 with W = 1 is the T form (`43_arm_single_transfer.md` R505). -/
def sdtInstr (load byte : Bool) (c : Cond) (p u w : Bool) (rn rd : Reg) (off : SdtOffset) : Instr :=
  match load, byte, !p && w with
  | true, false, false => .ldr c p u w rn rd off
  | true, false, true => .ldrt c u rn rd off
  | true, true, false => .ldrb c p u w rn rd off
  | true, true, true => .ldrbt c u rn rd off
  | false, false, false => .str c p u w rn rd off
  | false, false, true => .strt c u rn rd off
  | false, true, false => .strb c p u w rn rd off
  | false, true, true => .strbt c u rn rd off

/-- The halfword and signed loads (`47_arm_swap_halfword.md` R713, R715, R716). -/
def halfLoadInstr (k : HalfLoad) (c : Cond) (p u w : Bool) (rn rd : Reg) (off : HalfOffset) : Instr :=
  match k, off with
  | .unsignedHalf, .imm hi lo => .ldrhImm c p u w rn rd hi lo
  | .unsignedHalf, .reg rm => .ldrhReg c p u w rn rd rm
  | .signedByte, .imm hi lo => .ldrsbImm c p u w rn rd hi lo
  | .signedByte, .reg rm => .ldrsbReg c p u w rn rd rm
  | .signedHalf, .imm hi lo => .ldrshImm c p u w rn rd hi lo
  | .signedHalf, .reg rm => .ldrshReg c p u w rn rd rm

/-- The halfword stores (`47_arm_swap_halfword.md` R714). -/
def halfStoreInstr (c : Cond) (p u w : Bool) (rn rd : Reg) (off : HalfOffset) : Instr :=
  match off with
  | .imm hi lo => .strhImm c p u w rn rd hi lo
  | .reg rm => .strhReg c p u w rn rd rm

/-- The block loads (`48_arm_block_coproc_swi.md` R760 to R763). -/
def blockLoadInstr (m : BlockMode) (c : Cond) (sb w : Bool) (rn : Reg) (list : BitVec 16) : Instr :=
  match m with
  | .ia => .ldmia c sb w rn list
  | .ib => .ldmib c sb w rn list
  | .da => .ldmda c sb w rn list
  | .db => .ldmdb c sb w rn list

/-- The block stores (`48_arm_block_coproc_swi.md` R764 to R767). -/
def blockStoreInstr (m : BlockMode) (c : Cond) (sb w : Bool) (rn : Reg) (list : BitVec 16) : Instr :=
  match m with
  | .ia => .stmia c sb w rn list
  | .ib => .stmib c sb w rn list
  | .da => .stmda c sb w rn list
  | .db => .stmdb c sb w rn list

/-- The long multiplies (`46_arm_multiply.md` R655 to R658). -/
def longInstr (signed acc : Bool) (c : Cond) (sf : Bool) (rdHi rdLo rs rm : Reg) : Instr :=
  match signed, acc with
  | false, false => .umull c sf rdHi rdLo rs rm
  | false, true => .umlal c sf rdHi rdLo rs rm
  | true, false => .smull c sf rdHi rdLo rs rm
  | true, true => .smlal c sf rdHi rdLo rs rm

/-- The instructions whose meaning is to raise an exception (`48_arm_block_coproc_swi.md` R771 to R774, R780, R790,
`49_thumb.md` R877, R881). -/
def raises : Instr → Option Exception
  | .undefinedRow8 _ _ _ => some .undefinedInstruction
  | .ldcStcUndefined _ _ _ _ _ _ _ _ _ _ => some .undefinedInstruction
  | .cdp _ _ _ _ _ _ _ => some .undefinedInstruction
  | .mcr _ _ _ _ _ _ _ => some .undefinedInstruction
  | .mrc _ _ _ _ _ _ _ => some .undefinedInstruction
  | .swi _ _ => some .softwareInterrupt
  | .tSwi _ => some .softwareInterrupt
  | .tUndefinedDe _ => some .undefinedInstruction
  | .tUndefinedE8 _ => some .undefinedInstruction
  | .tUndefinedB _ => some .undefinedInstruction
  | _ => none

/-- The Thumb arithmetic and logic of formats T1 to T4 but MUL, over the low registers `x` and the status word `p`: the
opcode it computes, the two operands, the shifter's carry (the old C where the instruction leaves C) and Rd
(`49_thumb.md` R804 to R835). -/
def thumbAlu (i : Instr) (x : LowReg → Word) (p : Psr) : Option (DpOp × Word × Word × Bool × LowReg) :=
  let shift (y : Shifted) (rd : LowReg) := some (DpOp.mov, (0 : Word), y.value, y.carry, rd)
  match i with
  | .tAddReg rn rs rd => some (.add, x rs, x rn, p.c, rd)
  | .tSubReg rn rs rd => some (.sub, x rs, x rn, p.c, rd)
  | .tAddImm3 imm3 rs rd => some (.add, x rs, imm3.zeroExtend 32, p.c, rd)
  | .tSubImm3 imm3 rs rd => some (.sub, x rs, imm3.zeroExtend 32, p.c, rd)
  | .tLslImm amount rs rd => shift (shiftImm .lsl amount (x rs) p.c) rd
  | .tLsrImm amount rs rd => shift (shiftImm .lsr amount (x rs) p.c) rd
  | .tAsrImm amount rs rd => shift (shiftImm .asr amount (x rs) p.c) rd
  | .tMovImm rd imm8 => some (.mov, 0, imm8.zeroExtend 32, p.c, rd)
  | .tCmpImm rd imm8 => some (.cmp, x rd, imm8.zeroExtend 32, p.c, rd)
  | .tAddImm8 rd imm8 => some (.add, x rd, imm8.zeroExtend 32, p.c, rd)
  | .tSubImm8 rd imm8 => some (.sub, x rd, imm8.zeroExtend 32, p.c, rd)
  | .tAnd rs rd => some (.and, x rd, x rs, p.c, rd)
  | .tEor rs rd => some (.eor, x rd, x rs, p.c, rd)
  | .tLslReg rs rd => shift (shiftReg .lsl (lowByte (x rs)) (x rd) p.c) rd
  | .tLsrReg rs rd => shift (shiftReg .lsr (lowByte (x rs)) (x rd) p.c) rd
  | .tAsrReg rs rd => shift (shiftReg .asr (lowByte (x rs)) (x rd) p.c) rd
  | .tAdc rs rd => some (.adc, x rd, x rs, p.c, rd)
  | .tSbc rs rd => some (.sbc, x rd, x rs, p.c, rd)
  | .tRor rs rd => shift (shiftReg .ror (lowByte (x rs)) (x rd) p.c) rd
  | .tTst rs rd => some (.tst, x rd, x rs, p.c, rd)
  | .tNeg rs rd => some (.rsb, x rs, 0, p.c, rd)
  | .tCmpReg rs rd => some (.cmp, x rd, x rs, p.c, rd)
  | .tCmn rs rd => some (.cmn, x rd, x rs, p.c, rd)
  | .tOrr rs rd => some (.orr, x rd, x rs, p.c, rd)
  | .tBic rs rd => some (.bic, x rd, x rs, p.c, rd)
  | .tMvn rs rd => some (.mvn, 0, x rs, p.c, rd)
  | _ => none

/-- The widths and extensions of a Thumb load (`49_thumb.md` R840 to R857). -/
inductive LoadKind where
  | word
  | byte
  | half
  | signedByte
  | signedHalf
  deriving DecidableEq, Repr

/-- What a load of each kind reads at an address (`20_memory.md` R181 to R183, `47_arm_swap_halfword.md` R715, R716). -/
def loadOf (k : LoadKind) (a : Word) (s : State) : Word × State :=
  match k with
  | .word => read32 a s
  | .byte => read8 a s
  | .half => read16 a s
  | .signedByte => (((read8 a s).1.extractLsb' 0 8).signExtend 32, (read8 a s).2)
  | .signedHalf =>
    if a.getLsbD 0 then (((read8 a s).1.extractLsb' 0 8).signExtend 32, (read8 a s).2)
    else (((read16 a s).1.extractLsb' 0 16).signExtend 32, (read16 a s).2)

/-- The Thumb loads of formats T6 to T11, over the low registers `x`, the stack pointer `sp` and the program counter
`pc`: the kind, Rd and the address (`49_thumb.md` R840 to R857). -/
def thumbLoad (i : Instr) (x : LowReg → Word) (sp pc : Word) : Option (LoadKind × LowReg × Word) :=
  match i with
  | .tLdrPc rd word8 => some (.word, rd, (pc &&& 0xFFFFFFFC#32) + BitVec.ofNat 32 (4 * word8.toNat))
  | .tLdrReg ro rb rd => some (.word, rd, x rb + x ro)
  | .tLdrbReg ro rb rd => some (.byte, rd, x rb + x ro)
  | .tLdsb ro rb rd => some (.signedByte, rd, x rb + x ro)
  | .tLdrhReg ro rb rd => some (.half, rd, x rb + x ro)
  | .tLdsh ro rb rd => some (.signedHalf, rd, x rb + x ro)
  | .tLdrImm off5 rb rd => some (.word, rd, x rb + BitVec.ofNat 32 (4 * off5.toNat))
  | .tLdrbImm off5 rb rd => some (.byte, rd, x rb + BitVec.ofNat 32 off5.toNat)
  | .tLdrhImm off5 rb rd => some (.half, rd, x rb + BitVec.ofNat 32 (2 * off5.toNat))
  | .tLdrSp rd word8 => some (.word, rd, sp + BitVec.ofNat 32 (4 * word8.toNat))
  | _ => none

/-- The Thumb stores of formats T7 to T11: the width, Rd and the address (`49_thumb.md` R842 to R856). -/
def thumbStore (i : Instr) (x : LowReg → Word) (sp : Word) : Option (Width × LowReg × Word) :=
  match i with
  | .tStrReg ro rb rd => some (.word, rd, x rb + x ro)
  | .tStrbReg ro rb rd => some (.byte, rd, x rb + x ro)
  | .tStrhReg ro rb rd => some (.half, rd, x rb + x ro)
  | .tStrImm off5 rb rd => some (.word, rd, x rb + BitVec.ofNat 32 (4 * off5.toNat))
  | .tStrbImm off5 rb rd => some (.byte, rd, x rb + BitVec.ofNat 32 off5.toNat)
  | .tStrhImm off5 rb rd => some (.half, rd, x rb + BitVec.ofNat 32 (2 * off5.toNat))
  | .tStrSp rd word8 => some (.word, rd, sp + BitVec.ofNat 32 (4 * word8.toNat))
  | _ => none

/-- The instructions that read or write SP or LR through their bank (`49_thumb.md` R801). -/
def usesStackPointer : Instr → Bool
  | .tLdrSp _ _ | .tStrSp _ _ | .tAddSpRd _ _ | .tAddSpImm _ | .tSubSpImm _ | .tPush _ _ | .tPop _ _ => true
  | _ => false

/-- The first byte address and the number of bytes of a store of a width (`20_memory.md` R185 to R187). -/
def Width.span (w : Width) (a : Word) : Word × Nat :=
  match w with
  | .byte => (a, 1)
  | .half => (a &&& 0xFFFFFFFE#32, 2)
  | .word => (a &&& 0xFFFFFFFC#32, 4)

/-- The storage addresses a store of a width at `a` can change. -/
def Width.cells (w : Width) (s : State) (a : Word) : List Nat := storedCells s (w.span a).1 (w.span a).2

/-! ### What an instruction may change -/

/-- The base register, where the form writes it back. -/
def wbReg (wb : Bool) (rn : Reg) : List Reg := if wb then [rn] else []

/-- The indices of the general registers an instruction writes, the program counter apart. -/
def destRegs (i : Instr) : List Reg :=
  match i with
  | .mul _ _ rd _ _ => [rd]
  | .mla _ _ rd _ _ _ => [rd]
  | .umull _ _ rdHi rdLo _ _ => [rdHi, rdLo]
  | .umlal _ _ rdHi rdLo _ _ => [rdHi, rdLo]
  | .smull _ _ rdHi rdLo _ _ => [rdHi, rdLo]
  | .smlal _ _ rdHi rdLo _ _ => [rdHi, rdLo]
  | .swp _ _ rd _ => [rd]
  | .swpb _ _ rd _ => [rd]
  | .strhImm _ p _ w rn _ _ _ => wbReg (writesBack p w) rn
  | .strhReg _ p _ w rn _ _ => wbReg (writesBack p w) rn
  | .ldrhImm _ p _ w rn rd _ _ => rd :: wbReg (writesBack p w) rn
  | .ldrhReg _ p _ w rn rd _ => rd :: wbReg (writesBack p w) rn
  | .ldrsbImm _ p _ w rn rd _ _ => rd :: wbReg (writesBack p w) rn
  | .ldrsbReg _ p _ w rn rd _ => rd :: wbReg (writesBack p w) rn
  | .ldrshImm _ p _ w rn rd _ _ => rd :: wbReg (writesBack p w) rn
  | .ldrshReg _ p _ w rn rd _ => rd :: wbReg (writesBack p w) rn
  | .mrs _ _ rd => [rd]
  | .andImm _ _ _ rd _ _ => [rd]
  | .andRegImmShift _ _ _ rd _ _ _ => [rd]
  | .andRegRegShift _ _ _ rd _ _ _ => [rd]
  | .eorImm _ _ _ rd _ _ => [rd]
  | .eorRegImmShift _ _ _ rd _ _ _ => [rd]
  | .eorRegRegShift _ _ _ rd _ _ _ => [rd]
  | .subImm _ _ _ rd _ _ => [rd]
  | .subRegImmShift _ _ _ rd _ _ _ => [rd]
  | .subRegRegShift _ _ _ rd _ _ _ => [rd]
  | .rsbImm _ _ _ rd _ _ => [rd]
  | .rsbRegImmShift _ _ _ rd _ _ _ => [rd]
  | .rsbRegRegShift _ _ _ rd _ _ _ => [rd]
  | .addImm _ _ _ rd _ _ => [rd]
  | .addRegImmShift _ _ _ rd _ _ _ => [rd]
  | .addRegRegShift _ _ _ rd _ _ _ => [rd]
  | .adcImm _ _ _ rd _ _ => [rd]
  | .adcRegImmShift _ _ _ rd _ _ _ => [rd]
  | .adcRegRegShift _ _ _ rd _ _ _ => [rd]
  | .sbcImm _ _ _ rd _ _ => [rd]
  | .sbcRegImmShift _ _ _ rd _ _ _ => [rd]
  | .sbcRegRegShift _ _ _ rd _ _ _ => [rd]
  | .rscImm _ _ _ rd _ _ => [rd]
  | .rscRegImmShift _ _ _ rd _ _ _ => [rd]
  | .rscRegRegShift _ _ _ rd _ _ _ => [rd]
  | .orrImm _ _ _ rd _ _ => [rd]
  | .orrRegImmShift _ _ _ rd _ _ _ => [rd]
  | .orrRegRegShift _ _ _ rd _ _ _ => [rd]
  | .movImm _ _ rd _ _ => [rd]
  | .movRegImmShift _ _ rd _ _ _ => [rd]
  | .movRegRegShift _ _ _ rd _ _ _ => [rd]
  | .bicImm _ _ _ rd _ _ => [rd]
  | .bicRegImmShift _ _ _ rd _ _ _ => [rd]
  | .bicRegRegShift _ _ _ rd _ _ _ => [rd]
  | .mvnImm _ _ rd _ _ => [rd]
  | .mvnRegImmShift _ _ rd _ _ _ => [rd]
  | .mvnRegRegShift _ _ _ rd _ _ _ => [rd]
  | .strt _ _ rn _ _ => [rn]
  | .ldrt _ _ rn rd _ => [rd, rn]
  | .strbt _ _ rn _ _ => [rn]
  | .ldrbt _ _ rn rd _ => [rd, rn]
  | .str _ p _ w rn _ _ => wbReg (writesBack p w) rn
  | .ldr _ p _ w rn rd _ => rd :: wbReg (writesBack p w) rn
  | .strb _ p _ w rn _ _ => wbReg (writesBack p w) rn
  | .ldrb _ p _ w rn rd _ => rd :: wbReg (writesBack p w) rn
  | .stmda _ _ w rn _ => wbReg w rn
  | .ldmda _ _ w rn list => regList list ++ wbReg w rn
  | .stmia _ _ w rn _ => wbReg w rn
  | .ldmia _ _ w rn list => regList list ++ wbReg w rn
  | .stmdb _ _ w rn _ => wbReg w rn
  | .ldmdb _ _ w rn list => regList list ++ wbReg w rn
  | .stmib _ _ w rn _ => wbReg w rn
  | .ldmib _ _ w rn list => regList list ++ wbReg w rn
  | .bl _ _ => [14]
  | .tAddReg _ _ rd => [lowReg rd]
  | .tSubReg _ _ rd => [lowReg rd]
  | .tAddImm3 _ _ rd => [lowReg rd]
  | .tSubImm3 _ _ rd => [lowReg rd]
  | .tLslImm _ _ rd => [lowReg rd]
  | .tLsrImm _ _ rd => [lowReg rd]
  | .tAsrImm _ _ rd => [lowReg rd]
  | .tMovImm rd _ => [lowReg rd]
  | .tAddImm8 rd _ => [lowReg rd]
  | .tSubImm8 rd _ => [lowReg rd]
  | .tAnd _ rd => [lowReg rd]
  | .tEor _ rd => [lowReg rd]
  | .tLslReg _ rd => [lowReg rd]
  | .tLsrReg _ rd => [lowReg rd]
  | .tAsrReg _ rd => [lowReg rd]
  | .tAdc _ rd => [lowReg rd]
  | .tSbc _ rd => [lowReg rd]
  | .tRor _ rd => [lowReg rd]
  | .tNeg _ rd => [lowReg rd]
  | .tOrr _ rd => [lowReg rd]
  | .tMul _ rd => [lowReg rd]
  | .tBic _ rd => [lowReg rd]
  | .tMvn _ rd => [lowReg rd]
  | .tAddHi h1 _ _ rd => [hiReg h1 rd]
  | .tMovHi h1 _ _ rd => [hiReg h1 rd]
  | .tLdrPc rd _ => [lowReg rd]
  | .tLdrReg _ _ rd => [lowReg rd]
  | .tLdrbReg _ _ rd => [lowReg rd]
  | .tLdsb _ _ rd => [lowReg rd]
  | .tLdrhReg _ _ rd => [lowReg rd]
  | .tLdsh _ _ rd => [lowReg rd]
  | .tLdrImm _ _ rd => [lowReg rd]
  | .tLdrbImm _ _ rd => [lowReg rd]
  | .tLdrhImm _ _ rd => [lowReg rd]
  | .tLdrSp rd _ => [lowReg rd]
  | .tAddPc rd _ => [lowReg rd]
  | .tAddSpRd rd _ => [lowReg rd]
  | .tAddSpImm _ => [13]
  | .tSubSpImm _ => [13]
  | .tPush _ _ => [13]
  | .tPop _ rlist => 13 :: regList (rlist.zeroExtend 16)
  | .tStmia rb _ => [lowReg rb]
  | .tLdmia rb rlist => lowReg rb :: regList (rlist.zeroExtend 16)
  | .tBlFirst _ => [14]
  | .tBlSecond _ => [14]
  | _ => []

/-- The mode whose registers an instruction writes: User for a user-bank load, else the current one
(`48_arm_block_coproc_swi.md` R758). -/
def destMode (i : Instr) (s : State) : ModeBits :=
  match i with
  | .ldmia _ sb _ _ list | .ldmib _ sb _ _ list | .ldmda _ sb _ _ list | .ldmdb _ sb _ _ list =>
    if sb && !list.getLsbD 15 then userMode else s.cpsr.mode
  | _ => s.cpsr.mode

/-- The word index `r` names under the current mode; 0 where it names none. -/
def regAt (s : State) (r : Reg) : Word :=
  match resolve s.cpsr.mode r.toNat with
  | .ok c => s.regs.read c
  | .error _ => 0

/-- The offset of a single data transfer, from the registers as they stand (`43_arm_single_transfer.md` R501). -/
def sdtOffsetAt (s : State) (o : SdtOffset) : Word :=
  match o with
  | .imm offset12 => offset12.zeroExtend 32
  | .reg amount k rm => (shiftImm k amount (regAt s rm) s.cpsr.c).value

/-- The offset of a halfword transfer, from the registers as they stand (`47_arm_swap_halfword.md` R710). -/
def halfOffsetAt (s : State) (o : HalfOffset) : Word :=
  match o with
  | .imm hi lo => (hi ++ lo).zeroExtend 32
  | .reg rm => regAt s rm

/-- The storage addresses of a block of `k` aligned words from the address `a` (`48_arm_block_coproc_swi.md` R752). -/
def blockCells (s : State) (a : Word) (k : Nat) : List Nat := storedCells s (a &&& 0xFFFFFFFC#32) (4 * k)

/-- The storage addresses an instruction can store to: none for one that stores nothing. -/
def storeCells (i : Instr) (s : State) : List Nat :=
  match i with
  | .str _ p u _ rn _ off => Width.word.cells s (transferAddress p u (regAt s rn) (sdtOffsetAt s off))
  | .strt _ u rn _ off => Width.word.cells s (transferAddress false u (regAt s rn) (sdtOffsetAt s off))
  | .strb _ p u _ rn _ off => Width.byte.cells s (transferAddress p u (regAt s rn) (sdtOffsetAt s off))
  | .strbt _ u rn _ off => Width.byte.cells s (transferAddress false u (regAt s rn) (sdtOffsetAt s off))
  | .strhImm _ p u _ rn _ hi lo => Width.half.cells s (transferAddress p u (regAt s rn) (halfOffsetAt s (.imm hi lo)))
  | .strhReg _ p u _ rn _ rm => Width.half.cells s (transferAddress p u (regAt s rn) (halfOffsetAt s (.reg rm)))
  | .swp _ rn _ _ => Width.word.cells s (regAt s rn)
  | .swpb _ rn _ _ => Width.byte.cells s (regAt s rn)
  | .stmia _ _ _ rn list => blockCells s (firstAddress .ia (regAt s rn) (regList list).length) (regList list).length
  | .stmib _ _ _ rn list => blockCells s (firstAddress .ib (regAt s rn) (regList list).length) (regList list).length
  | .stmda _ _ _ rn list => blockCells s (firstAddress .da (regAt s rn) (regList list).length) (regList list).length
  | .stmdb _ _ _ rn list => blockCells s (firstAddress .db (regAt s rn) (regList list).length) (regList list).length
  | .tPush r rlist =>
    let k := (regList (stackList r 14 rlist)).length
    blockCells s (firstAddress .db (regAt s 13) k) k
  | .tStmia rb rlist => blockCells s (regAt s (lowReg rb)) (regList (rlist.zeroExtend 16)).length
  | i =>
    match thumbStore i (fun r => regAt s (lowReg r)) (regAt s 13) with
    | some (w, _, a) => w.cells s a
    | none => []

/-- What of the CPSR an instruction may change. -/
inductive StatusEffect where
  /-- nothing -/
  | none
  /-- N and Z -/
  | nz
  /-- N, Z and C -/
  | nzc
  /-- N, Z, C and V -/
  | nzcv
  /-- T -/
  | t
  /-- any bit: the instruction writes the status word itself -/
  | whole
  deriving DecidableEq, Repr

/-- `q` is `p` but for what the effect names. -/
def StatusEffect.Allows (e : StatusEffect) (p q : Psr) : Prop :=
  match e with
  | .none => q = p
  | .nz => q = { p with n := q.n, z := q.z }
  | .nzc => q = { p with n := q.n, z := q.z, c := q.c }
  | .nzcv => q = { p with n := q.n, z := q.z, c := q.c, v := q.v }
  | .t => q = { p with t := q.t }
  | .whole => True

/-- The flags of a data-processing form (`42_arm_data_processing.md` R453 to R455). -/
def dpStatus (op : DpOp) (sf : Bool) (rd : Reg) : StatusEffect :=
  let flags := if dpLogical op then StatusEffect.nzc else .nzcv
  if dpComparison op then flags
  else if !sf then .none
  else if rd = 15 then .whole
  else flags

/-- What of the CPSR an instruction that raises nothing may change. -/
def statusEffect (i : Instr) : StatusEffect :=
  match i with
  | .bx _ _ => .t
  | .mul _ sf _ _ _ => if sf then .nzc else .none
  | .mla _ sf _ _ _ _ => if sf then .nzc else .none
  | .umull _ sf _ _ _ _ => if sf then .nzcv else .none
  | .umlal _ sf _ _ _ _ => if sf then .nzcv else .none
  | .smull _ sf _ _ _ _ => if sf then .nzcv else .none
  | .smlal _ sf _ _ _ _ => if sf then .nzcv else .none
  | .msrReg _ r _ _ => if r then .none else .whole
  | .msrImm _ r _ _ _ => if r then .none else .whole
  | .andImm _ sf _ rd _ _ => dpStatus .and sf rd
  | .andRegImmShift _ sf _ rd _ _ _ => dpStatus .and sf rd
  | .andRegRegShift _ sf _ rd _ _ _ => dpStatus .and sf rd
  | .eorImm _ sf _ rd _ _ => dpStatus .eor sf rd
  | .eorRegImmShift _ sf _ rd _ _ _ => dpStatus .eor sf rd
  | .eorRegRegShift _ sf _ rd _ _ _ => dpStatus .eor sf rd
  | .subImm _ sf _ rd _ _ => dpStatus .sub sf rd
  | .subRegImmShift _ sf _ rd _ _ _ => dpStatus .sub sf rd
  | .subRegRegShift _ sf _ rd _ _ _ => dpStatus .sub sf rd
  | .rsbImm _ sf _ rd _ _ => dpStatus .rsb sf rd
  | .rsbRegImmShift _ sf _ rd _ _ _ => dpStatus .rsb sf rd
  | .rsbRegRegShift _ sf _ rd _ _ _ => dpStatus .rsb sf rd
  | .addImm _ sf _ rd _ _ => dpStatus .add sf rd
  | .addRegImmShift _ sf _ rd _ _ _ => dpStatus .add sf rd
  | .addRegRegShift _ sf _ rd _ _ _ => dpStatus .add sf rd
  | .adcImm _ sf _ rd _ _ => dpStatus .adc sf rd
  | .adcRegImmShift _ sf _ rd _ _ _ => dpStatus .adc sf rd
  | .adcRegRegShift _ sf _ rd _ _ _ => dpStatus .adc sf rd
  | .sbcImm _ sf _ rd _ _ => dpStatus .sbc sf rd
  | .sbcRegImmShift _ sf _ rd _ _ _ => dpStatus .sbc sf rd
  | .sbcRegRegShift _ sf _ rd _ _ _ => dpStatus .sbc sf rd
  | .rscImm _ sf _ rd _ _ => dpStatus .rsc sf rd
  | .rscRegImmShift _ sf _ rd _ _ _ => dpStatus .rsc sf rd
  | .rscRegRegShift _ sf _ rd _ _ _ => dpStatus .rsc sf rd
  | .tstImm _ _ _ _ => dpStatus .tst true 0
  | .tstRegImmShift _ _ _ _ _ => dpStatus .tst true 0
  | .tstRegRegShift _ _ _ _ _ _ => dpStatus .tst true 0
  | .teqImm _ _ _ _ => dpStatus .teq true 0
  | .teqRegImmShift _ _ _ _ _ => dpStatus .teq true 0
  | .teqRegRegShift _ _ _ _ _ _ => dpStatus .teq true 0
  | .cmpImm _ _ _ _ => dpStatus .cmp true 0
  | .cmpRegImmShift _ _ _ _ _ => dpStatus .cmp true 0
  | .cmpRegRegShift _ _ _ _ _ _ => dpStatus .cmp true 0
  | .cmnImm _ _ _ _ => dpStatus .cmn true 0
  | .cmnRegImmShift _ _ _ _ _ => dpStatus .cmn true 0
  | .cmnRegRegShift _ _ _ _ _ _ => dpStatus .cmn true 0
  | .orrImm _ sf _ rd _ _ => dpStatus .orr sf rd
  | .orrRegImmShift _ sf _ rd _ _ _ => dpStatus .orr sf rd
  | .orrRegRegShift _ sf _ rd _ _ _ => dpStatus .orr sf rd
  | .movImm _ sf rd _ _ => dpStatus .mov sf rd
  | .movRegImmShift _ sf rd _ _ _ => dpStatus .mov sf rd
  | .movRegRegShift _ sf _ rd _ _ _ => dpStatus .mov sf rd
  | .bicImm _ sf _ rd _ _ => dpStatus .bic sf rd
  | .bicRegImmShift _ sf _ rd _ _ _ => dpStatus .bic sf rd
  | .bicRegRegShift _ sf _ rd _ _ _ => dpStatus .bic sf rd
  | .mvnImm _ sf rd _ _ => dpStatus .mvn sf rd
  | .mvnRegImmShift _ sf rd _ _ _ => dpStatus .mvn sf rd
  | .mvnRegRegShift _ sf _ rd _ _ _ => dpStatus .mvn sf rd
  | .ldmda _ sb _ _ list => if sb && list.getLsbD 15 then .whole else .none
  | .ldmia _ sb _ _ list => if sb && list.getLsbD 15 then .whole else .none
  | .ldmdb _ sb _ _ list => if sb && list.getLsbD 15 then .whole else .none
  | .ldmib _ sb _ _ list => if sb && list.getLsbD 15 then .whole else .none
  | .tAddReg _ _ _ => .nzcv
  | .tSubReg _ _ _ => .nzcv
  | .tAddImm3 _ _ _ => .nzcv
  | .tSubImm3 _ _ _ => .nzcv
  | .tLslImm _ _ _ => .nzc
  | .tLsrImm _ _ _ => .nzc
  | .tAsrImm _ _ _ => .nzc
  | .tMovImm _ _ => .nz
  | .tCmpImm _ _ => .nzcv
  | .tAddImm8 _ _ => .nzcv
  | .tSubImm8 _ _ => .nzcv
  | .tAnd _ _ => .nz
  | .tEor _ _ => .nz
  | .tLslReg _ _ => .nzc
  | .tLsrReg _ _ => .nzc
  | .tAsrReg _ _ => .nzc
  | .tAdc _ _ => .nzcv
  | .tSbc _ _ => .nzcv
  | .tRor _ _ => .nzc
  | .tTst _ _ => .nz
  | .tNeg _ _ => .nzcv
  | .tCmpReg _ _ => .nzcv
  | .tCmn _ _ => .nzcv
  | .tOrr _ _ => .nz
  | .tMul _ _ => .nzc
  | .tBic _ _ => .nz
  | .tMvn _ _ => .nz
  | .tCmpHi _ _ _ _ => .nzcv
  | .tBx _ _ _ _ => .t
  | _ => .none

/-- The instructions that read memory, which moves the open-bus latch (`20_memory.md` R169). -/
def readsMemory (i : Instr) : Bool :=
  match i with
  | .swp _ _ _ _ => true
  | .swpb _ _ _ _ => true
  | .ldrhImm _ _ _ _ _ _ _ _ => true
  | .ldrhReg _ _ _ _ _ _ _ => true
  | .ldrsbImm _ _ _ _ _ _ _ _ => true
  | .ldrsbReg _ _ _ _ _ _ _ => true
  | .ldrshImm _ _ _ _ _ _ _ _ => true
  | .ldrshReg _ _ _ _ _ _ _ => true
  | .ldrt _ _ _ _ _ => true
  | .ldrbt _ _ _ _ _ => true
  | .ldr _ _ _ _ _ _ _ => true
  | .ldrb _ _ _ _ _ _ _ => true
  | .ldmda _ _ _ _ _ => true
  | .ldmia _ _ _ _ _ => true
  | .ldmdb _ _ _ _ _ => true
  | .ldmib _ _ _ _ _ => true
  | .tLdrPc _ _ => true
  | .tLdrReg _ _ _ => true
  | .tLdrbReg _ _ _ => true
  | .tLdsb _ _ _ => true
  | .tLdrhReg _ _ _ => true
  | .tLdsh _ _ _ => true
  | .tLdrImm _ _ _ => true
  | .tLdrbImm _ _ _ => true
  | .tLdrhImm _ _ _ => true
  | .tLdrSp _ _ => true
  | .tPop _ _ => true
  | .tLdmia _ _ => true
  | _ => false

end Sys2Proof.Machine
end

