-- ==== Sys2Proof/Certificates/Slice0/Obligations.lean ====
section
/-!
DEFINITION. The statements for the provers, from the numbered rules of spec/. A statement about a next state gives the
whole of it: what the equation does not name is unchanged.
-/

open Sys2Proof Sys2Proof.Machine

/-! ### Encoding -/

/-- Decoding the encoding of a well-formed instruction gives it back (`30_encoding.md`, the formats R257 to R276). -/
def Obligations.DecodeOfEncode : Prop :=
  ∀ i : Instr, i.wellFormed = true → decode (encode i) = i

/-- Every Thumb halfword is the encoding of the instruction it decodes to: decoding drops no bit (`30_encoding.md` R271,
R275, R276). -/
def Obligations.EncodeOfDecodeThumb : Prop :=
  ∀ h : Half, encode (decodeThumb h) = .thumb h

/-- Example words of the instruction rules decode to the instructions the rules name. -/
def Obligations.ExampleWordsDecode : Prop :=
  decodeTableWord 32 0xE21100FF = some (.andImm .al true 1 0 0 0xFF) ∧
  decodeTableWord 32 0xE1A00211 = some (.movRegRegShift .al false 0 0 2 .lsl 1) ∧
  decodeTableWord 32 0xE7810102 = some (.str .al true true false 1 0 (.reg 2 .lsl 2)) ∧
  decodeTableWord 32 0xE12FFF10 = some (.bx .al 0) ∧
  decodeTableWord 32 0xE129F000 = some (.msrReg .al false 0b1001 0) ∧
  decodeTableWord 32 0xE0810392 = some (.umull .al false 1 0 3 2) ∧
  decodeTableWord 32 0xE17100F2 = some (.ldrshImm .al true false true 1 0 0 2) ∧
  decodeTableWord 32 0xE92D4003 = some (.stmdb .al false true 13 0x4003) ∧
  decodeTableWord 32 0xEE110F10 = some (.mrc .al 0 1 0 15 0 0) ∧
  decodeTableWord 32 0xEF000010 = some (.swi .al 0x10) ∧
  decodeTableWord 16 0x4088 = some (.tLslReg 1 0) ∧
  decodeTableWord 16 0x46F7 = some (.tMovHi true true 6 7) ∧
  decodeTableWord 16 0xB501 = some (.tPush true 1) ∧
  decodeTableWord 16 0xD002 = some (.tBCond .eq 2) ∧
  decodeTableWord 16 0xFFFE = some (.tBlSecond 0x7FE)

/-! ### The step -/

/-- The sixteen condition codes (`40_pipeline.md` R363). -/
def Obligations.ConditionTable : Prop :=
  ∀ p : Psr,
    (Cond.passed (Cond.ofBits 0b0000) p = true ↔ p.z = true) ∧
    (Cond.passed (Cond.ofBits 0b0001) p = true ↔ p.z = false) ∧
    (Cond.passed (Cond.ofBits 0b0010) p = true ↔ p.c = true) ∧
    (Cond.passed (Cond.ofBits 0b0011) p = true ↔ p.c = false) ∧
    (Cond.passed (Cond.ofBits 0b0100) p = true ↔ p.n = true) ∧
    (Cond.passed (Cond.ofBits 0b0101) p = true ↔ p.n = false) ∧
    (Cond.passed (Cond.ofBits 0b0110) p = true ↔ p.v = true) ∧
    (Cond.passed (Cond.ofBits 0b0111) p = true ↔ p.v = false) ∧
    (Cond.passed (Cond.ofBits 0b1000) p = true ↔ p.c = true ∧ p.z = false) ∧
    (Cond.passed (Cond.ofBits 0b1001) p = true ↔ p.c = false ∨ p.z = true) ∧
    (Cond.passed (Cond.ofBits 0b1010) p = true ↔ p.n = p.v) ∧
    (Cond.passed (Cond.ofBits 0b1011) p = true ↔ p.n ≠ p.v) ∧
    (Cond.passed (Cond.ofBits 0b1100) p = true ↔ p.z = false ∧ p.n = p.v) ∧
    (Cond.passed (Cond.ofBits 0b1101) p = true ↔ p.z = true ∨ p.n ≠ p.v) ∧
    (Cond.passed (Cond.ofBits 0b1110) p = true) ∧
    (Cond.passed (Cond.ofBits 0b1111) p = false)

/-- An ARM instruction whose condition fails has no effect, and the step only advances (`40_pipeline.md` R368). -/
def Obligations.FailedConditionOnlyAdvances : Prop :=
  ∀ (i : Instr) (c : Cond) (s : State), armCond i = some c → Cond.passed c s.cpsr = false →
    exec i s = .next s ∧
    (s.faulted = none → s.primed = true → s.flushFlag = false → executingInstr s = some i →
      (s.config.excPolicy = .noop ∨ pendingInterrupt s = none) →
      step s = .next (advance { s with flushRequested := false }))

/-- A step before priming faults. After it, a step that takes no interrupt runs the instruction in the executing slot of
the encoding CPSR.T selects, then ends by the flush or the advance; a fault ends it at once with the state
the instruction left, and no instruction is refused (`40_pipeline.md` R352, R353, R376). -/
def Obligations.StepRunsExecutingSlot : Prop :=
  ∀ (s : State) (i : Instr),
    (s.faulted = none → s.primed = false → step s = .fault (stop .pipelineNotPrimed s)) ∧
    (s.faulted = none → s.primed = true → (s.config.excPolicy = .noop ∨ pendingInterrupt s = none) →
      (if s.cpsr.t then s.thExecuting.map decodeThumb else s.armExecuting.map decodeArm) = some i →
      (∀ t, exec i { s with flushRequested := false } = .next t → step s = .next (finishStep t)) ∧
      (∀ f, exec i { s with flushRequested := false } = .fault f → step s = .fault f) ∧
      ∀ r, exec i { s with flushRequested := false } ≠ .refused r)

/-- The bytes at an aligned program counter, read little-endian, are the first instruction that runs after priming; the
model's byte order is the spec's (`20_memory.md` R152, R190, `40_pipeline.md` R351, R352). -/
def Obligations.StepRunsTheBytesAtPc : Prop :=
  ∀ (s : State) (k0 k1 : Nat), s.faulted = none → s.config.excPolicy = .noop ∨ LinesLow s →
    readCell s s.regs.pc = some k0 → readCell s (s.regs.pc + 1) = some k1 →
    (s.cpsr.t = true → s.regs.pc.extractLsb' 0 1 = 0#1 →
      ∀ t, exec (decodeThumb (s.mem.read k1 ++ s.mem.read k0))
          { initializeForExecution s with flushRequested := false } = .next t →
        step (initializeForExecution s) = .next (finishStep t)) ∧
    (s.cpsr.t = false → s.regs.pc.extractLsb' 0 2 = 0#2 →
      ∀ k2 k3, readCell s (s.regs.pc + 2) = some k2 → readCell s (s.regs.pc + 3) = some k3 →
      ∀ t, exec (decodeArm (s.mem.read k3 ++ s.mem.read k2 ++ s.mem.read k1 ++ s.mem.read k0))
          { initializeForExecution s with flushRequested := false } = .next t →
        step (initializeForExecution s) = .next (finishStep t))

/-- The end of a step. Without a flush it fetches at PC, moves PC past the fetch, and shifts the slots, so the next
instruction is the one already in the decoding slot. A requested flush takes the place of the advance: it refills the
executing and decoding slots of the encoding in force from PC, empties the fetched slot, and leaves PC two instructions on. A
fault ends the run. Of a fault, two things are the model's choice (notes/assumptions/9.md, DESIGN CHOICE): the reason is
recorded in the field `faulted` of the state the fault leaves, and a step from that state answers the same fault with
the same state; the spec says only that the reason is recorded and that no later step runs
(`40_pipeline.md` R353 to R355, R357, R362, `70_reset_and_hazards.md` R961). -/
def Obligations.StepEnds : Prop :=
  ∀ s : State,
    (s.flushRequested = false → s.flushFlag = false → s.cpsr.t = false →
      finishStep s =
        { (read32 s.regs.pc s).2 with
          regs := s.regs.write .pc (s.regs.pc + 4)
          armFetched := some (read32 s.regs.pc s).1
          armExecuting := s.armDecoding
          armDecoding := some (read32 s.regs.pc s).1 }) ∧
    (s.flushRequested = false → s.flushFlag = false → s.cpsr.t = true →
      finishStep s =
        { (read16 s.regs.pc s).2 with
          regs := s.regs.write .pc (s.regs.pc + 2)
          thFetched := some ((read16 s.regs.pc s).1.extractLsb' 0 16)
          thExecuting := s.thDecoding
          thDecoding := some ((read16 s.regs.pc s).1.extractLsb' 0 16) }) ∧
    (s.flushRequested = true → s.cpsr.t = false →
      let x := read32 s.regs.pc s
      let d := read32 (s.regs.pc + 4) x.2
      finishStep s =
        { d.2 with
          regs := s.regs.write .pc (s.regs.pc + 8)
          armFetched := none
          armExecuting := some x.1
          armDecoding := some d.1
          flushFlag := false
          flushRequested := false }) ∧
    (s.flushRequested = true → s.cpsr.t = true →
      let x := read16 s.regs.pc s
      let d := read16 (s.regs.pc + 2) x.2
      finishStep s =
        { d.2 with
          regs := s.regs.write .pc (s.regs.pc + 4)
          thFetched := none
          thExecuting := some (x.1.extractLsb' 0 16)
          thDecoding := some (d.1.extractLsb' 0 16)
          flushFlag := false
          flushRequested := false }) ∧
    (∀ r, stop r s = .stopped r { s with faulted := some r }) ∧
    ∀ r t, step s = .fault (.stopped r t) → t.faulted = some r ∧ step t = .fault (.stopped r t)

/-- The interrupt lines: under `Trap` FIQ, then IRQ, is taken in place of the executing instruction unless masked; under
`Fault` an unmasked line faults; under either, while every line that is high is masked by F or I, the executing
instruction runs; under `Noop` the lines are not read (`60_exceptions.md` R908). -/
def Obligations.InterruptLines : Prop :=
  ∀ s : State, s.faulted = none → s.primed = true →
    let s0 : State := { s with flushRequested := false }
    (s.config.excPolicy = .trap → s.fiqLine = true → s.cpsr.f = false →
      step s = .next (finishStep (enterException .fiq s0))) ∧
    (s.config.excPolicy = .trap → ¬(s.fiqLine = true ∧ s.cpsr.f = false) → s.irqLine = true → s.cpsr.i = false →
      step s = .next (finishStep (enterException .irq s0))) ∧
    (s.config.excPolicy = .fault → (s.fiqLine = true ∧ s.cpsr.f = false) ∨ (s.irqLine = true ∧ s.cpsr.i = false) →
      step s = .fault (stop .interruptNotModelled s0)) ∧
    ((s.fiqLine = true → s.cpsr.f = true) → (s.irqLine = true → s.cpsr.i = true) →
      pendingInterrupt s = none ∧
      ∀ i, (if s.cpsr.t then s.thExecuting.map decodeThumb else s.armExecuting.map decodeArm) = some i →
        (∀ t, exec i s0 = .next t → step s = .next (finishStep t)) ∧ ∀ f, exec i s0 = .fault f → step s = .fault f) ∧
    (s.config.excPolicy = .noop →
      ∀ irq fiq t, step s = .next t →
        step { s with irqLine := irq, fiqLine := fiq } = .next { t with irqLine := irq, fiqLine := fiq })

/-- Exception entry: the mode, its saved status word, its R14, T and I (and F for FIQ), and the vector; A is PC - 2w
(`60_exceptions.md` R901, R903). -/
def Obligations.ExceptionEntry : Prop :=
  ∀ s : State,
    let w : Word := if s.cpsr.t then 2 else 4
    let a := s.regs.pc - w - w
    let enter := fun (m : ModeBits) (k : Bank) (lr v : Word) (f : Bool) =>
      ({ s with
         cpsr := { s.cpsr with mode := m, t := false, i := true, f := f }
         spsr := s.spsr.saveIn k s.cpsr
         regs := (s.regs.write k.r14 lr).write .pc v
         flushRequested := true } : State)
    enterException .undefinedInstruction s = enter 0x1B .und (a + w) 0x04 s.cpsr.f ∧
    enterException .softwareInterrupt s = enter 0x13 .svc (a + w) 0x08 s.cpsr.f ∧
    enterException .prefetchAbort s = enter 0x17 .abt (a + 4) 0x0C s.cpsr.f ∧
    enterException .dataAbort s = enter 0x17 .abt (a + 8) 0x10 s.cpsr.f ∧
    enterException .irq s = enter 0x12 .irq (a + 4) 0x18 s.cpsr.f ∧
    enterException .fiq s = enter 0x11 .fiq (a + 4) 0x1C true

/-! ### Reset and the host -/

/-- What construction leaves, for every setting of the parameters and every draw of the flags: the values the spec gives.
RAM reads 0x00 and save RAM 0xFF; the I/O array reads `IO_DEFAULTS` (`10_state.md` R83, `70_reset_and_hazards.md` R950).
Nothing is said of the registers and saved status words, whose values the model chose (notes/assumptions/2.md), nor of an
I/O byte past the list `ioDefaults` (notes/assumptions/4.md). -/
def Obligations.ConstructedState : Prop :=
  ∀ (cfg : Config) (n z c v : Bool),
    let s := State.construct cfg n z c v
    s.regs.pc = 0 ∧ s.cpsr.mode = 0x13 ∧ s.cpsr.i = true ∧ s.cpsr.f = true ∧ s.cpsr.t = false ∧ s.cpsr.reserved = 0 ∧
    s.cpsr.n = n ∧ s.cpsr.z = z ∧ s.cpsr.c = c ∧ s.cpsr.v = v ∧
    s.armFetched = none ∧ s.armDecoding = none ∧ s.armExecuting = none ∧
    s.thFetched = none ∧ s.thDecoding = none ∧ s.thExecuting = none ∧
    s.flushFlag = false ∧ s.primed = false ∧ s.romSize = 0 ∧ s.bootLoaded = 0 ∧ s.biosLocked = false ∧
    s.openBusLatch = 0 ∧
    (∀ k, k < 0x04000000 → s.mem.read k = 0) ∧ (∀ k, 0x04000400 ≤ k → k < 0x0E000000 → s.mem.read k = 0) ∧
    (∀ k, 0x0E000000 ≤ k → k < 0x0E010000 → s.mem.read k = 0xFF) ∧
    (∀ o b, o < 0x400 → cfg.ioDefaults[o]? = some b → s.mem.read (0x04000000 + o) = b)

/-- The invariant holds right after reset, and priming brings it to every launched state: to every state with canonical
memory and an aligned program counter, and so to every fresh reset with its loads and launch writes
(`70_reset_and_hazards.md` R954, R974). -/
def Obligations.InvAtReset : Prop :=
  Inv State.reset ∧
  (∀ s : State, MemCanonical s → PcAligned s → s.flushRequested = false → Inv (initializeForExecution s)) ∧
  ∀ s : State, FreshReset s → LaunchAligned s → NoFault s ∧ Inv (initializeForExecution s)

/-- The host's memory operations. The bus reset: RAM to 0x00, save RAM to 0xFF, the I/O array to `IO_DEFAULTS`, the latch
to 0; the boot ROM, the cartridge ROM and everything outside the bus as they were. The two loads: what each stores, and
that each changes nothing else; a program image is read where an address reaches it (`70_reset_and_hazards.md` R951 to
R953, `20_memory.md` R158, R166). -/
def Obligations.HostMemoryOperations : Prop :=
  ∀ (s : State) (bytes : List Byte), MemCanonical s →
    ((∃ m, busReset s = { s with mem := m, openBusLatch := 0 }) ∧ MemCanonical (busReset s) ∧
      (∀ k, k < 0x4000 → (busReset s).mem.read k = s.mem.read k) ∧
      (∀ k, 0x4000 ≤ k → k < 0x04000000 → (busReset s).mem.read k = 0) ∧
      (∀ o b, o < 0x400 → s.config.ioDefaults[o]? = some b → (busReset s).mem.read (0x04000000 + o) = b) ∧
      (∀ k, 0x04000400 ≤ k → k < 0x08000000 → (busReset s).mem.read k = 0) ∧
      (∀ k, 0x08000000 ≤ k → k < 0x0A000000 → (busReset s).mem.read k = s.mem.read k) ∧
      ∀ k, 0x0E000000 ≤ k → k < 0x0E010000 → (busReset s).mem.read k = 0xFF) ∧
    ((∃ m, loadBootImage bytes s = { s with mem := m, bootLoaded := min bytes.length 0x4000 }) ∧
      MemCanonical (loadBootImage bytes s) ∧
      (∀ i b, i < 0x4000 → bytes[i]? = some b → (loadBootImage bytes s).mem.read i = b) ∧
      (∀ i, bytes.length ≤ i → i < 0x4000 → (loadBootImage bytes s).mem.read i = 0) ∧
      ∀ k, 0x4000 ≤ k → (loadBootImage bytes s).mem.read k = s.mem.read k) ∧
    (∃ m, loadProgramImage bytes s = { s with mem := m, romSize := bytes.length }) ∧
    MemCanonical (loadProgramImage bytes s) ∧
    (∀ i b, i < 0x2000000 → bytes[i]? = some b → (loadProgramImage bytes s).mem.read (0x08000000 + i) = b) ∧
    ∀ k, k < 0x08000000 ∨ 0x0A000000 ≤ k → (loadProgramImage bytes s).mem.read k = s.mem.read k

/-! ### Memory -/

/-- The address map: the storage address of a byte read and of a byte write of every address, and which are open bus or
discarded (`20_memory.md` R156, R157, R162, R165, R171 to R173). -/
def Obligations.AddressMap : Prop :=
  ∀ (s : State) (a : Word),
    let top := a.toNat / 2 ^ 24
    let array := fun (k : Nat) => readCell s a = some k ∧ writeCell s a = some k
    let boundary := match s.config.biosLockBoundary with
      | .loaded => s.bootLoaded
      | .fixed n => n
    (top = 0x00 →
      writeCell s a = none ∧
      readCell s a =
        if 0x4000 ≤ a.toNat ∨ (s.biosLocked = true ∧ boundary ≤ a.toNat) then none else some a.toNat) ∧
    (top = 0x02 → array (0x02000000 + a.toNat % 0x40000)) ∧
    (top = 0x03 → array (0x03000000 + a.toNat % 0x8000)) ∧
    (top = 0x04 →
      if a.toNat % 2 ^ 24 < 0x400 then array (0x04000000 + a.toNat % 2 ^ 24)
      else readCell s a = none ∧ writeCell s a = none) ∧
    (top = 0x05 → array (0x05000000 + a.toNat % 0x400)) ∧
    (top = 0x06 →
      array (0x06000000 + (if a.toNat % 0x20000 < 0x18000 then a.toNat % 0x20000 else a.toNat % 0x20000 - 0x8000))) ∧
    (top = 0x07 → array (0x07000000 + a.toNat % 0x400)) ∧
    (0x08 ≤ top → top ≤ 0x0D →
      if a.toNat % 0x2000000 < s.romSize then array (0x08000000 + a.toNat % 0x2000000)
      else readCell s a = none ∧ writeCell s a = none) ∧
    (top = 0x0E ∨ top = 0x0F → array (0x0E000000 + a.toNat % 0x10000)) ∧
    (top = 0x01 ∨ 0x10 ≤ top → readCell s a = none ∧ writeCell s a = none)

/-- One byte. A read served from storage answers it and sets the open-bus latch; an open-bus read answers the latch and
changes nothing; the inspection reads the same byte. A stored byte reads back, every other byte of the store is as before,
nothing else changes, and a write without storage is discarded (`20_memory.md` R169, R170, R172, R192, R206). -/
def Obligations.ByteAccess : Prop :=
  ∀ (s : State) (a : Word) (b : Byte),
    (∀ k, readCell s a = some k → readByte a s = (s.mem.read k, { s with openBusLatch := s.mem.read k })) ∧
    (readCell s a = none → readByte a s = (s.openBusLatch, s)) ∧
    inspectByte a s = (readByte a s).1 ∧
    (∃ m, writeByte a b s = { s with mem := m }) ∧
    (MemCanonical s → MemCanonical (writeByte a b s) ∧
      ∀ k, writeCell s a = some k → (writeByte a b s).mem.read k = b) ∧
    (∀ k, writeCell s a ≠ some k → (writeByte a b s).mem.read k = s.mem.read k) ∧
    (writeCell s a = none → writeByte a b s = s)

/-- The wide accesses. A read is little-endian at the aligned address, then rotated right over 32 bits by eight times the
misalignment, the bytes read one after the other; a store aligns its address, and a word store rotates left first where
`MISALIGNED_STORE_ROTATE` is true (`20_memory.md` R181 to R183, R185 to R187). -/
def Obligations.WideAccess : Prop :=
  ∀ (s : State) (a v : Word),
    (let base := a &&& ~~~3#32
     let r0 := readByte base s
     let r1 := readByte (base + 1) r0.2
     let r2 := readByte (base + 2) r1.2
     let r3 := readByte (base + 3) r2.2
     let word := (r0.1.zeroExtend 32) ||| (r1.1.zeroExtend 32 <<< 8) ||| (r2.1.zeroExtend 32 <<< 16) |||
       (r3.1.zeroExtend 32 <<< 24)
     read32 a s = (word.rotateRight (8 * (a.toNat % 4)), r3.2)) ∧
    (let base := a &&& ~~~1#32
     let r0 := readByte base s
     let r1 := readByte (base + 1) r0.2
     let half := (r0.1.zeroExtend 32) ||| (r1.1.zeroExtend 32 <<< 8)
     read16 a s = (if a.toNat % 2 = 0 then half else half.rotateRight 8, r1.2)) ∧
    read8 a s = ((readByte a s).1.zeroExtend 32, (readByte a s).2) ∧
    (let base := a &&& ~~~3#32
     let x := if s.config.misalignedStoreRotate then v.rotateLeft (8 * (a.toNat % 4)) else v
     write32 a v s =
       writeByte (base + 3) (x.extractLsb' 24 8) (writeByte (base + 2) (x.extractLsb' 16 8)
         (writeByte (base + 1) (x.extractLsb' 8 8) (writeByte base (x.extractLsb' 0 8) s)))) ∧
    (let base := a &&& ~~~1#32
     write16 a v s = writeByte (base + 1) (v.extractLsb' 8 8) (writeByte base (v.extractLsb' 0 8) s)) ∧
    write8 a v s = writeByte a (v.extractLsb' 0 8) s

/-- A word stored and loaded at one address comes back, whatever the misalignment: the rotation of the load undoes the
rotation of the store (`20_memory.md` R181, R185). -/
def Obligations.StoreThenLoad : Prop :=
  ∀ (s : State) (a v : Word), MemCanonical s →
    (s.config.misalignedStoreRotate = true ∨ a.extractLsb' 0 2 = 0#2) →
    (∀ j : Nat, j < 4 → ∃ k, writeCell s ((a &&& ~~~3#32) + BitVec.ofNat 32 j) = some k ∧
      readCell s ((a &&& ~~~3#32) + BitVec.ofNat 32 j) = some k) →
    (read32 a (write32 a v s)).1 = v

/-! ### Registers -/

/-- Which word each index names under each mode code; an access to index 13 or 14 under an invalid code faults, and an
index above 15 (`10_state.md` R62 to R65). -/
def Obligations.RegisterBanks : Prop :=
  ∀ m : ModeBits,
    (∀ i : LowReg, resolve m i.toNat = .ok (lowCell i)) ∧
    (m = 0x11 → resolve m 8 = .ok .r8fiq ∧ resolve m 9 = .ok .r9fiq ∧ resolve m 10 = .ok .r10fiq ∧
      resolve m 11 = .ok .r11fiq ∧ resolve m 12 = .ok .r12fiq) ∧
    (m ≠ 0x11 → resolve m 8 = .ok .r8usr ∧ resolve m 9 = .ok .r9usr ∧ resolve m 10 = .ok .r10usr ∧
      resolve m 11 = .ok .r11usr ∧ resolve m 12 = .ok .r12usr) ∧
    (m = 0x10 ∨ m = 0x1F → resolve m 13 = .ok .r13usr ∧ resolve m 14 = .ok .r14usr) ∧
    (m = 0x11 → resolve m 13 = .ok .r13fiq ∧ resolve m 14 = .ok .r14fiq) ∧
    (m = 0x12 → resolve m 13 = .ok .r13irq ∧ resolve m 14 = .ok .r14irq) ∧
    (m = 0x13 → resolve m 13 = .ok .r13svc ∧ resolve m 14 = .ok .r14svc) ∧
    (m = 0x17 → resolve m 13 = .ok .r13abt ∧ resolve m 14 = .ok .r14abt) ∧
    (m = 0x1B → resolve m 13 = .ok .r13und ∧ resolve m 14 = .ok .r14und) ∧
    (m ∉ [0x10, 0x11, 0x12, 0x13, 0x17, 0x1B, 0x1F] →
      resolve m 13 = .error (.invalidMode m) ∧ resolve m 14 = .error (.invalidMode m) ∧
      ∀ (s : State) (v : Word), s.cpsr.mode = m →
        readReg 13 s = .error (stop (.invalidMode m) s) ∧ readReg 14 s = .error (stop (.invalidMode m) s) ∧
        writeReg 13 v s = .error (stop (.invalidMode m) s) ∧ writeReg 14 v s = .error (stop (.invalidMode m) s)) ∧
    resolve m 15 = .ok .pc ∧
    ∀ i, 15 < i → resolve m i = .error (.invalidRegisterIndex i)

/-- A write of the program counter stores the value aligned to the encoding in force and requests a flush, and a later read
of index 15 returns it; a write of index 15 is one, and a write of another index stores into the word it names
(`44_arm_branch.md` R556, `40_pipeline.md` R361, `10_state.md` R69). -/
def Obligations.RegisterWrites : Prop :=
  ∀ (s : State) (v : Word),
    writePc v s =
      { s with
        regs := s.regs.write .pc (if s.cpsr.t then v &&& ~~~1#32 else v &&& ~~~3#32)
        flushRequested := true } ∧
    readReg 15 (writePc v s) = .ok (if s.cpsr.t then v &&& ~~~1#32 else v &&& ~~~3#32) ∧
    writeReg 15 v s = .ok (writePc v s) ∧
    ∀ i c, i ≠ 15 → Names s i c → writeReg i v s = .ok { s with regs := s.regs.write c v }

/-! ### Shifter and adder -/

/-- The shifts by an immediate amount: a word, its bits and its carry-out, with the meanings of amount 0
(`41_shifter_alu.md` R403 to R406). -/
def Obligations.ShiftByImmediate : Prop :=
  ∀ (n : BitVec 5) (v : Word) (c : Bool),
    (n = 0 →
      shiftImm .lsl n v c = { value := v, carry := c } ∧
      shiftImm .lsr n v c = { value := 0, carry := v.getLsbD 31 } ∧
      shiftImm .asr n v c = { value := if v.getLsbD 31 then 0xFFFFFFFF else 0, carry := v.getLsbD 31 } ∧
      (shiftImm .ror n v c).value.toNat = c.toNat * 2 ^ 31 + v.toNat / 2 ∧ (shiftImm .ror n v c).carry = v.getLsbD 0) ∧
    (n ≠ 0 →
      (shiftImm .lsl n v c).value.toNat = v.toNat * 2 ^ n.toNat % 2 ^ 32 ∧
      (shiftImm .lsl n v c).carry = v.getLsbD (32 - n.toNat) ∧
      (shiftImm .lsr n v c).value.toNat = v.toNat / 2 ^ n.toNat ∧
      (shiftImm .lsr n v c).carry = v.getLsbD (n.toNat - 1) ∧
      (shiftImm .asr n v c).value.toInt = v.toInt / 2 ^ n.toNat ∧
      (shiftImm .asr n v c).carry = v.getLsbD (n.toNat - 1) ∧
      (∀ j, j < 32 → (shiftImm .ror n v c).value.getLsbD j = v.getLsbD ((j + n.toNat) % 32)) ∧
      (shiftImm .ror n v c).carry = v.getLsbD (n.toNat - 1))

/-- The shifts by a register's low byte (`41_shifter_alu.md` R407 to R411). -/
def Obligations.ShiftByRegister : Prop :=
  ∀ (k : ShiftKind) (a : Byte) (v : Word) (c : Bool),
    let n := a.toNat
    (n = 0 → shiftReg k a v c = { value := v, carry := c }) ∧
    (1 ≤ n → n ≤ 31 →
      (shiftReg .lsl a v c).value.toNat = v.toNat * 2 ^ n % 2 ^ 32 ∧ (shiftReg .lsl a v c).carry = v.getLsbD (32 - n) ∧
      (shiftReg .lsr a v c).value.toNat = v.toNat / 2 ^ n ∧ (shiftReg .lsr a v c).carry = v.getLsbD (n - 1) ∧
      (shiftReg .asr a v c).value.toInt = v.toInt / 2 ^ n ∧ (shiftReg .asr a v c).carry = v.getLsbD (n - 1)) ∧
    (n = 32 →
      shiftReg .lsl a v c = { value := 0, carry := v.getLsbD 0 } ∧
      shiftReg .lsr a v c = { value := 0, carry := v.getLsbD 31 }) ∧
    (32 < n →
      shiftReg .lsl a v c = { value := 0, carry := false } ∧ shiftReg .lsr a v c = { value := 0, carry := false }) ∧
    (32 ≤ n →
      shiftReg .asr a v c = { value := if v.getLsbD 31 then 0xFFFFFFFF else 0, carry := v.getLsbD 31 }) ∧
    (1 ≤ n → n % 32 = 0 → shiftReg .ror a v c = { value := v, carry := v.getLsbD 31 }) ∧
    (n % 32 ≠ 0 →
      (∀ j, j < 32 → (shiftReg .ror a v c).value.getLsbD j = v.getLsbD ((j + n) % 32)) ∧
      (shiftReg .ror a v c).carry = v.getLsbD (n % 32 - 1))

/-! ### ARM data processing -/

/-- A data-processing instruction that does not write R15: the exact result into Rd, and with S = 1 the exact flags; a
comparison always writes the flags, and no register (`42_arm_data_processing.md` R453, R454, R460 to R475,
`41_shifter_alu.md` R417 to R419). -/
def Obligations.DataProcessingResult : Prop :=
  ∀ (op : DpOp) (c : Cond) (sf : Bool) (rn rd : Reg) (o : Operand2) (s : State) (cn cd : RegCell) (x : Shifted),
    Cond.passed c s.cpsr = true → regShiftNamesR15 o rd rn = false → Names s rn cn → Operand2Is o s x →
    (dpComparison op = true →
      exec (dpInstr op c sf rn rd o) s =
        .next { s with cpsr := exactFlags op (s.regs.read cn) x.value x.carry s.cpsr }) ∧
    (dpComparison op = false → rd ≠ 15 → Names s rd cd →
      exec (dpInstr op c sf rn rd o) s =
        .next { s with
          regs := s.regs.write cd (exactResult op (s.regs.read cn) x.value s.cpsr.c)
          cpsr := if sf then exactFlags op (s.regs.read cn) x.value x.carry s.cpsr else s.cpsr })

/-- Rd = 15: the result goes to the program counter; with S = 1 the saved status word is restored first, and the restored
T aligns the result; without a saved status word the instruction faults (`42_arm_data_processing.md` R452, R455). -/
def Obligations.DataProcessingToPc : Prop :=
  ∀ (op : DpOp) (c : Cond) (rn : Reg) (o : Operand2) (s : State) (cn : RegCell) (x : Shifted),
    Cond.passed c s.cpsr = true → dpComparison op = false → regShiftNamesR15 o 15 rn = false → Names s rn cn →
    Operand2Is o s x →
    let r := exactResult op (s.regs.read cn) x.value s.cpsr.c
    exec (dpInstr op c false rn 15 o) s = .next (writePc r s) ∧
    (hasSpsr s.cpsr.mode = true →
      exec (dpInstr op c true rn 15 o) s = .next (writePc r { s with cpsr := getSpsr s })) ∧
    (hasSpsr s.cpsr.mode = false → exec (dpInstr op c true rn 15 o) s = .fault (stop .noSpsr s))

/-- A register-specified shift amount with R15 in any register field faults (`42_arm_data_processing.md` R453,
`41_shifter_alu.md` R412). That the Rd field of a comparison and the Rn field of a move count is the model's reading of
R453's pseudocode (notes/assumptions/15.md). -/
def Obligations.RegisterShiftOfR15Faults : Prop :=
  ∀ (op : DpOp) (c : Cond) (sf : Bool) (rn rd rs rm : Reg) (k : ShiftKind) (s : State),
    Cond.passed c s.cpsr = true → rn = 15 ∨ rd = 15 ∨ rs = 15 ∨ rm = 15 →
    exec (dpInstr op c sf rn rd (.regShift rs k rm)) s = .fault (stop (.unpredictable .dpRegShiftR15) s)

/-! ### ARM single data transfer -/

/-- LDR and LDRB in every form, the T forms among them: the byte or the rotated word into Rd, the moved base back into
Rn; Rd = 15 is a jump that needs an aligned address, else it faults after the write-back (`43_arm_single_transfer.md`
R501 to R505, R510, R511, R514, R516, R517). -/
def Obligations.SingleLoad : Prop :=
  ∀ (byte : Bool) (c : Cond) (p u w : Bool) (rn rd : Reg) (off : SdtOffset) (s : State) (cn cd : RegCell) (x : Word),
    let wb := !p || w
    let base := s.regs.read cn
    let addr := if p then movedBase u base x else base
    let data := if byte then read8 addr s else read32 addr s
    let regs := if wb then s.regs.write cn (movedBase u base x) else s.regs
    Cond.passed c s.cpsr = true → (wb = true → rn ≠ 15 ∧ rn ≠ rd) → (byte = true → rd ≠ 15) →
    Names s rn cn → Names s rd cd → SdtOffsetIs off s x →
    (rd ≠ 15 →
      exec (sdtInstr true byte c p u w rn rd off) s = .next { data.2 with regs := regs.write cd data.1 }) ∧
    (rd = 15 → addr.toNat % 4 = 0 →
      exec (sdtInstr true byte c p u w rn rd off) s = .next (writePc data.1 { data.2 with regs := regs })) ∧
    (rd = 15 → addr.toNat % 4 ≠ 0 →
      exec (sdtInstr true byte c p u w rn rd off) s =
        .fault (stop (.unpredictable .ldrPcMisaligned) { data.2 with regs := regs }))

/-- STR and STRB in every form, the T forms among them: Rd (of R15, PC + `PC_READ_EXTRA`) stored, then the moved base
back into Rn (`43_arm_single_transfer.md` R501 to R505, R512, R513, R515, R518, R519). -/
def Obligations.SingleStore : Prop :=
  ∀ (byte : Bool) (c : Cond) (p u w : Bool) (rn rd : Reg) (off : SdtOffset) (s : State) (cn cd : RegCell) (x : Word),
    let wb := !p || w
    let base := s.regs.read cn
    let addr := if p then movedBase u base x else base
    let v := if rd = 15 then (if s.config.pcReadExtra = .four then s.regs.pc + 4 else s.regs.pc) else s.regs.read cd
    let stored := if byte then write8 addr v s else write32 addr v s
    Cond.passed c s.cpsr = true → (wb = true → rn ≠ 15 ∧ rn ≠ rd) → (byte = true → rd ≠ 15) →
    Names s rn cn → Names s rd cd → SdtOffsetIs off s x →
    exec (sdtInstr false byte c p u w rn rd off) s =
      .next { stored with regs := if wb then s.regs.write cn (movedBase u base x) else s.regs }

/-- The single data transfers that ARMv4T leaves UNPREDICTABLE fault, the first case named winning
(`43_arm_single_transfer.md` R504). -/
def Obligations.SingleTransferFaults : Prop :=
  ∀ (load byte : Bool) (c : Cond) (p u w : Bool) (rn rd : Reg) (off : SdtOffset) (s : State),
    let wb := !p || w
    let faults := fun (k : UnpredictableCase) =>
      exec (sdtInstr load byte c p u w rn rd off) s = .fault (stop (.unpredictable k) s)
    Cond.passed c s.cpsr = true →
    (sdtOffsetIsR15 off = true → faults .sdtOffsetR15) ∧
    (sdtOffsetIsR15 off = false → wb = true → rn = 15 → faults .sdtWritebackR15) ∧
    (sdtOffsetIsR15 off = false → wb = true → rn ≠ 15 → rn = rd → faults .sdtWritebackRnIsRd) ∧
    (sdtOffsetIsR15 off = false → (wb = true → rn ≠ 15 ∧ rn ≠ rd) → byte = true → rd = 15 → faults .sdtByteR15)

/-! ### ARM branches -/

/-- B and BL: PC plus the sign-extended word offset; BL leaves the address of the next instruction in R14 of the current
mode first (`44_arm_branch.md` R557 to R559). -/
def Obligations.ArmBranch : Prop :=
  ∀ (c : Cond) (imm24 : BitVec 24) (s : State), Cond.passed c s.cpsr = true →
    let target := s.regs.pc + BitVec.ofInt 32 (imm24.toInt * 4)
    exec (.b c imm24) s = .next (writePc target s) ∧
    ∀ c14, Names s 14 c14 →
      exec (.bl c imm24) s = .next (writePc target { s with regs := s.regs.write c14 (s.regs.pc - 4) })

/-- BX, ARM and Thumb: bit 0 of the register selects Thumb state; an ARM-state target with bit 1 set faults; the Thumb
form with H1 set faults (`44_arm_branch.md` R560, `49_thumb.md` R839). -/
def Obligations.BranchExchange : Prop :=
  ∀ (i : Instr) (r : Reg) (s : State) (cr : RegCell),
    ((∃ c, Cond.passed c s.cpsr = true ∧ i = .bx c r) ∨
      ∃ h2 rs rd, r = BitVec.ofBool h2 ++ rs ∧ i = .tBx false h2 rs rd) →
    Names s r cr →
    let t := s.regs.read cr
    (t.getLsbD 0 = true →
      exec i s = .next { s with
        cpsr := { s.cpsr with t := true }, regs := s.regs.write .pc (t &&& ~~~1#32), flushRequested := true }) ∧
    (t.getLsbD 0 = false → t.getLsbD 1 = false →
      exec i s = .next { s with
        cpsr := { s.cpsr with t := false }, regs := s.regs.write .pc t, flushRequested := true }) ∧
    (t.getLsbD 0 = false → t.getLsbD 1 = true → exec i s = .fault (stop .misalignedBxTarget s)) ∧
    ∀ h2 rs rd, exec (.tBx true h2 rs rd) s = .fault (stop (.unpredictable .thumbBxH1) s)

/-! ### Status-register transfer -/

/-- MRS: the CPSR or the saved status word into Rd; Rd = 15 faults (`45_arm_psr_transfer.md` R601). -/
def Obligations.MrsReadsStatus : Prop :=
  ∀ (c : Cond) (r : Bool) (rd : Reg) (s : State) (cd : RegCell), Cond.passed c s.cpsr = true → Names s rd cd →
    (rd ≠ 15 →
      exec (.mrs c r rd) s =
        .next { s with regs := s.regs.write cd (if r then (getSpsr s).toWord else s.cpsr.toWord) }) ∧
    (rd = 15 → exec (.mrs c r rd) s = .fault (stop (.unpredictable .mrsR15) s))

/-- MSR to the CPSR, immediate or register: each bit comes from the operand where the field mask names its byte (from User
mode the flags byte alone), else it stays; a change of T faults; no flush (`45_arm_psr_transfer.md` R602
to R608). -/
def Obligations.MsrCpsr : Prop :=
  ∀ (c : Cond) (mask : BitVec 4) (i : Instr) (v : Word) (s : State), Cond.passed c s.cpsr = true →
    ((∃ rot imm8, i = .msrImm c false mask rot imm8 ∧ v = (imm8.zeroExtend 32).rotateRight (2 * rot.toNat)) ∨
      ∃ rm cm, rm ≠ 15 ∧ Names s rm cm ∧ i = .msrReg c false mask rm ∧ v = s.regs.read cm) →
    let written := fun (j : Nat) => mask.getLsbD (j / 8) && (s.cpsr.mode != 0x10 || decide (24 ≤ j))
    ((written 5 = false ∨ v.getLsbD 5 = s.cpsr.t) →
      ∃ q : Psr, exec i s = .next { s with cpsr := q } ∧
        ∀ j, j < 32 → q.toWord.getLsbD j = if written j then v.getLsbD j else s.cpsr.toWord.getLsbD j) ∧
    (written 5 = true → v.getLsbD 5 ≠ s.cpsr.t → exec i s = .fault (stop .tBitWrite s))

/-- MSR to the saved status word: of the current mode, or the dummy word in User, System and every invalid mode; T may be
set; MSR of R15 faults (`45_arm_psr_transfer.md` R602, R603, R605, `10_state.md` R66). -/
def Obligations.MsrSpsr : Prop :=
  ∀ (c : Cond) (mask : BitVec 4) (i : Instr) (v : Word) (s : State), Cond.passed c s.cpsr = true →
    ((∃ rot imm8, i = .msrImm c true mask rot imm8 ∧ v = (imm8.zeroExtend 32).rotateRight (2 * rot.toNat)) ∨
      ∃ rm cm, rm ≠ 15 ∧ Names s rm cm ∧ i = .msrReg c true mask rm ∧ v = s.regs.read cm) →
    (∃ q : Psr,
      (∀ j, j < 32 → q.toWord.getLsbD j = if mask.getLsbD (j / 8) then v.getLsbD j else (getSpsr s).toWord.getLsbD j) ∧
      exec i s = .next { s with
        spsr :=
          if s.cpsr.mode = 0x11 then { s.spsr with fiq := q }
          else if s.cpsr.mode = 0x12 then { s.spsr with irq := q }
          else if s.cpsr.mode = 0x13 then { s.spsr with svc := q }
          else if s.cpsr.mode = 0x17 then { s.spsr with abt := q }
          else if s.cpsr.mode = 0x1B then { s.spsr with und := q }
          else { s.spsr with dummy := q } }) ∧
    ∀ r, exec (.msrReg c r mask 15) s = .fault (stop (.unpredictable .msrR15) s)

/-! ### Multiply -/

/-- MUL and MLA: the product, with the accumulator, modulo 2^32; with S = 1 N and Z of it, V unchanged, and C some value
the model leaves free; R15 as an operand faults, then Rd = Rm (`46_arm_multiply.md` R651, `41_shifter_alu.md` R421, R422;
notes/assumptions/5.md). -/
def Obligations.Multiply : Prop :=
  ∀ (c : Cond) (sf : Bool) (rd rn rs rm : Reg) (s : State) (cd cn cs cm : RegCell), Cond.passed c s.cpsr = true →
    Names s rd cd → Names s rn cn → Names s rs cs → Names s rm cm →
    let product := (s.regs.read cm).toNat * (s.regs.read cs).toNat
    let effect := fun (r : Word) (free : Bool) (t : State) =>
      t = { s with
        regs := s.regs.write cd r
        cpsr := if sf then { s.cpsr with n := r.getLsbD 31, z := decide (r = 0), c := free } else s.cpsr
        draws := if sf then s.draws + 1 else s.draws }
    (rd ≠ 15 → rs ≠ 15 → rm ≠ 15 → rd ≠ rm →
      (∃ free t, effect (BitVec.ofNat 32 product) free t ∧ exec (.mul c sf rd rs rm) s = .next t) ∧
      (rn ≠ 15 → ∃ free t, effect (BitVec.ofNat 32 (product + (s.regs.read cn).toNat)) free t ∧
        exec (.mla c sf rd rn rs rm) s = .next t)) ∧
    (rd = 15 ∨ rs = 15 ∨ rm = 15 → exec (.mul c sf rd rs rm) s = .fault (stop (.unpredictable .mulR15) s)) ∧
    (rd = 15 ∨ rn = 15 ∨ rs = 15 ∨ rm = 15 →
      exec (.mla c sf rd rn rs rm) s = .fault (stop (.unpredictable .mulR15) s)) ∧
    (rd ≠ 15 → rn ≠ 15 → rs ≠ 15 → rd = rm →
      exec (.mul c sf rd rs rm) s = .fault (stop (.unpredictable .mulRdIsRm) s) ∧
      exec (.mla c sf rd rn rs rm) s = .fault (stop (.unpredictable .mulRdIsRm) s))

/-- The long multiplies: the 64-bit product, signed or unsigned, with the accumulator, modulo 2^64, in two registers; with
S = 1 N and Z of it, and C and V some values the model leaves free; R15 as an operand faults, then two of the results and
Rm alike (`46_arm_multiply.md` R652, `41_shifter_alu.md` R421, R422; notes/assumptions/5.md). -/
def Obligations.MultiplyLong : Prop :=
  ∀ (signed acc : Bool) (c : Cond) (sf : Bool) (hi lo rs rm : Reg) (s : State) (chi clo cs cm : RegCell),
    Cond.passed c s.cpsr = true → Names s hi chi → Names s lo clo → Names s rs cs → Names s rm cm →
    let a := s.regs.read cm
    let b := s.regs.read cs
    let product : Int := if signed then a.toInt * b.toInt else (a.toNat : Int) * (b.toNat : Int)
    let old : Int := if acc then ((s.regs.read chi).toNat : Int) * 2 ^ 32 + (s.regs.read clo).toNat else 0
    let p : BitVec 64 := BitVec.ofInt 64 (product + old)
    let i := longInstr signed acc c sf hi lo rs rm
    let named := hi = 15 ∨ lo = 15 ∨ rs = 15 ∨ rm = 15
    let clash := hi = lo ∨ hi = rm ∨ lo = rm
    (¬named → ¬clash →
      ∃ freeC freeV, exec i s = .next { s with
        regs := (s.regs.write clo (p.extractLsb' 0 32)).write chi (p.extractLsb' 32 32)
        cpsr := if sf then { s.cpsr with n := p.getLsbD 63, z := decide (p = 0), c := freeC, v := freeV } else s.cpsr
        draws := if sf then s.draws + 2 else s.draws }) ∧
    (named → exec i s = .fault (stop (.unpredictable .mullR15) s)) ∧
    (¬named → clash → exec i s = .fault (stop (.unpredictable .mullRegisterClash) s))

/-! ### Swap, halfword and signed transfer -/

/-- SWP and SWPB: the old word or byte into Rd and Rm into memory, in one step; R15 faults, then a base that is
also Rd or Rm (`47_arm_swap_halfword.md` R700). -/
def Obligations.SwapExchanges : Prop :=
  ∀ (byte : Bool) (c : Cond) (rn rd rm : Reg) (s : State) (cn cd cm : RegCell), Cond.passed c s.cpsr = true →
    Names s rn cn → Names s rd cd → Names s rm cm →
    let i : Instr := if byte then .swpb c rn rd rm else .swp c rn rd rm
    let addr := s.regs.read cn
    let t := if byte then read8 addr s else read32 addr s
    let stored := if byte then write8 addr (s.regs.read cm) t.2 else write32 addr (s.regs.read cm) t.2
    (rn ≠ 15 → rd ≠ 15 → rm ≠ 15 → rn ≠ rm → rn ≠ rd →
      exec i s = .next { stored with regs := s.regs.write cd t.1 }) ∧
    (rn = 15 ∨ rd = 15 ∨ rm = 15 → exec i s = .fault (stop (.unpredictable .swpR15) s)) ∧
    (rn ≠ 15 → rd ≠ 15 → rm ≠ 15 → rn = rm ∨ rn = rd → exec i s = .fault (stop (.unpredictable .swpBaseClash) s))

/-- LDRH, LDRSB and LDRSH in every form: the extended halfword or byte into Rd, the moved base back into Rn; LDRH at an
odd address rotates, LDRSH at an odd address loads the byte (`47_arm_swap_halfword.md` R710, R711, R713, R715, R716). -/
def Obligations.HalfwordLoad : Prop :=
  ∀ (k : HalfLoad) (c : Cond) (p u w : Bool) (rn rd : Reg) (off : HalfOffset) (s : State) (cn cd : RegCell) (x : Word),
    let wb := !p || w
    let base := s.regs.read cn
    let addr := if p then movedBase u base x else base
    let signedByte := (((read8 addr s).1.extractLsb' 0 8).signExtend 32, (read8 addr s).2)
    let data := match k with
      | .unsignedHalf => read16 addr s
      | .signedByte => signedByte
      | .signedHalf =>
        if addr.toNat % 2 = 0 then (((read16 addr s).1.extractLsb' 0 16).signExtend 32, (read16 addr s).2)
        else signedByte
    Cond.passed c s.cpsr = true → (p = true ∨ w = false) → rd ≠ 15 → (wb = true → rn ≠ 15 ∧ rn ≠ rd) →
    Names s rn cn → Names s rd cd → HalfOffsetIs off s x →
    exec (halfLoadInstr k c p u w rn rd off) s =
      .next { data.2 with
        regs := (if wb then s.regs.write cn (movedBase u base x) else s.regs).write cd data.1 }

/-- STRH in every form: the low halfword of Rd at the address with bit 0 cleared, then the moved base back into Rn
(`47_arm_swap_halfword.md` R710, R711, R714). -/
def Obligations.HalfwordStore : Prop :=
  ∀ (c : Cond) (p u w : Bool) (rn rd : Reg) (off : HalfOffset) (s : State) (cn cd : RegCell) (x : Word),
    let wb := !p || w
    let base := s.regs.read cn
    let addr := if p then movedBase u base x else base
    Cond.passed c s.cpsr = true → (p = true ∨ w = false) → rd ≠ 15 → (wb = true → rn ≠ 15 ∧ rn ≠ rd) →
    Names s rn cn → Names s rd cd → HalfOffsetIs off s x →
    exec (halfStoreInstr c p u w rn rd off) s =
      .next { write16 addr (s.regs.read cd) s with
        regs := if wb then s.regs.write cn (movedBase u base x) else s.regs }

/-- The halfword category's UNPREDICTABLE cases fault, the first named winning; the signed stores always do
(`47_arm_swap_halfword.md` R711, R717). -/
def Obligations.HalfwordFaults : Prop :=
  ∀ (i : Instr) (c : Cond) (p u w : Bool) (rn rd : Reg) (off : HalfOffset) (s : State), Cond.passed c s.cpsr = true →
    let wb := !p || w
    let faults := fun (k : UnpredictableCase) => exec i s = .fault (stop (.unpredictable k) s)
    ((i = halfStoreInstr c p u w rn rd off ∨ ∃ k, i = halfLoadInstr k c p u w rn rd off) →
      (p = false → w = true → faults .halfwordPostWriteback) ∧
      ((p = true ∨ w = false) → rd = 15 → faults .halfwordR15) ∧
      ((p = true ∨ w = false) → rd ≠ 15 → halfOffsetIsR15 off = true → faults .halfwordOffsetR15) ∧
      ((p = true ∨ w = false) → rd ≠ 15 → halfOffsetIsR15 off = false → wb = true → rn = 15 →
        faults .halfwordWritebackR15) ∧
      ((p = true ∨ w = false) → rd ≠ 15 → halfOffsetIsR15 off = false → wb = true → rn = rd →
        faults .halfwordWritebackRnIsRd)) ∧
    ∀ imm hi h lo,
      exec (.halfwordSignedStore c p u imm w rn rd hi h lo) s = .fault (stop (.unpredictable .signedStore) s)

/-! ### ARM block transfer -/

/-- LDM in the four addressing modes: the words at rising addresses into the listed registers in rising order, of the
User bank with S = 1 and no R15 in the list; then the write-back; then R15, with S = 1 under the restored status word;
in a mode without a saved status word that restore faults, after the loads and the write-back
(`48_arm_block_coproc_swi.md` R750 to R754, R758, `42_arm_data_processing.md` R452). -/
def Obligations.BlockLoad : Prop :=
  ∀ (m : BlockMode) (c : Cond) (sb w : Bool) (rn : Reg) (list : BitVec 16) (s : State) (cn : RegCell)
    (cs : List RegCell),
    let k := (regList list).length
    let base := s.regs.read cn
    let bank := if sb && !list.getLsbD 15 then 0x10 else s.cpsr.mode
    let r := loadWords k (firstAddress m base k) s
    let regs := writeAll cs r.1 s.regs
    let t : State := { r.2 with regs := if w then regs.write cn (finalBase m base k) else regs }
    Cond.passed c s.cpsr = true → rn ≠ 15 → list ≠ 0 →
    (sb = true → list.getLsbD 15 = false → hasSpsr s.cpsr.mode = true ∧ w = false) →
    (w = true → list.getLsbD rn.toNat = false) →
    Names s rn cn →
    List.Forall₂ (fun (i : Reg) (cell : RegCell) => resolve bank i.toNat = .ok cell)
      ((regList list).filter (fun i => i != 15)) cs →
    (list.getLsbD 15 = false → exec (blockLoadInstr m c sb w rn list) s = .next t) ∧
    (list.getLsbD 15 = true →
      ∃ v, r.1.getLast? = some v ∧
        ((sb = true → hasSpsr s.cpsr.mode = true) →
          exec (blockLoadInstr m c sb w rn list) s =
            .next (writePc v (if sb then { t with cpsr := getSpsr s } else t)))) ∧
    (list.getLsbD 15 = true → sb = true → hasSpsr s.cpsr.mode = false →
      exec (blockLoadInstr m c sb w rn list) s = .fault (stop .noSpsr t))

/-- STM in the four addressing modes: the listed registers in rising order at rising addresses, of the User bank with
S = 1, R15 as PC + `PC_READ_EXTRA`; then the write-back (`48_arm_block_coproc_swi.md` R750 to R753, R755, R757, R758). -/
def Obligations.BlockStore : Prop :=
  ∀ (m : BlockMode) (c : Cond) (sb w : Bool) (rn : Reg) (list : BitVec 16) (s : State) (cn : RegCell) (vs : List Word),
    let k := (regList list).length
    let base := s.regs.read cn
    let bank := if sb then 0x10 else s.cpsr.mode
    Cond.passed c s.cpsr = true → rn ≠ 15 → list ≠ 0 → (sb = true → hasSpsr s.cpsr.mode = true ∧ w = false) →
    (w = true → list.getLsbD rn.toNat = true → (regList list).head? = some rn) →
    Names s rn cn →
    List.Forall₂ (fun (i : Reg) (v : Word) =>
        if i = 15 then v = (if s.config.pcReadExtra = .four then s.regs.pc + 4 else s.regs.pc)
        else ∃ cell, resolve bank i.toNat = .ok cell ∧ v = s.regs.read cell)
      (regList list) vs →
    exec (blockStoreInstr m c sb w rn list) s =
      .next { storeWords vs (firstAddress m base k) s with
        regs := if w then s.regs.write cn (finalBase m base k) else s.regs }

/-- The block transfers that ARMv4T leaves UNPREDICTABLE fault, the first named winning (`48_arm_block_coproc_swi.md`
R753). -/
def Obligations.BlockFaults : Prop :=
  ∀ (load : Bool) (m : BlockMode) (c : Cond) (sb w : Bool) (rn : Reg) (list : BitVec 16) (s : State),
    Cond.passed c s.cpsr = true →
    let i := if load then blockLoadInstr m c sb w rn list else blockStoreInstr m c sb w rn list
    let userBank := sb && !(load && list.getLsbD 15)
    let faults := fun (k : UnpredictableCase) => exec i s = .fault (stop (.unpredictable k) s)
    (rn = 15 → faults .blockBaseR15) ∧
    (rn ≠ 15 → list = 0 → faults .emptyRegisterList) ∧
    (rn ≠ 15 → list ≠ 0 → userBank = true → w = true → faults .userBankWriteback) ∧
    (rn ≠ 15 → list ≠ 0 → userBank = true → w = false → hasSpsr s.cpsr.mode = false →
      faults .userBankFromUserMode) ∧
    (rn ≠ 15 → userBank = false → load = true → w = true → list.getLsbD rn.toNat = true →
      faults .ldmWritebackBaseInList) ∧
    (rn ≠ 15 → userBank = false → load = false → w = true → list.getLsbD rn.toNat = true →
      (regList list).head? ≠ some rn → faults .stmWritebackBaseNotFirst)

/-! ### Exceptions raised by instructions -/

/-- The undefined instructions, the coprocessor instructions and the software interrupts do what EXC_POLICY says: nothing,
the exception entry, or a fault (`60_exceptions.md` R900, `48_arm_block_coproc_swi.md` R770 to R774, R780, R790,
`49_thumb.md` R877, R881). -/
def Obligations.RaisingInstructions : Prop :=
  ∀ (i : Instr) (e : Exception) (s : State), raises i = some e →
    (∀ c, armCond i = some c → Cond.passed c s.cpsr = true) →
    (s.config.excPolicy = .noop → exec i s = .next s) ∧
    (s.config.excPolicy = .trap → exec i s = .next (enterException e s)) ∧
    (s.config.excPolicy = .fault →
      exec i s =
        .fault (stop (if e = .softwareInterrupt then .softwareInterrupt else .undefinedInstruction) s))

/-- A software interrupt and the return `MOVS PC, LR` bring back every bit of the status word and continue after the
interrupt; only R14_svc, SPSR_svc and the program counter differ (`60_exceptions.md` R903, R905). -/
def Obligations.SoftwareInterruptReturns : Prop :=
  ∀ (s : State), s.config.excPolicy = .trap →
    let w : Word := if s.cpsr.t then 2 else 4
    let i : Instr := if s.cpsr.t then .tSwi 0 else .swi .al 0
    ∃ t u, exec i s = .next t ∧ exec (.movRegImmShift .al true 15 0 .lsl 14) t = .next u ∧
      u = { s with
        regs := (s.regs.write .r14svc (s.regs.pc - w)).write .pc (alignPc s.cpsr.t (s.regs.pc - w))
        spsr := { s.spsr with svc := s.cpsr }
        flushRequested := true }

/-! ### Thumb -/

/-- The Thumb arithmetic and logic of formats T1 to T4 but MUL: the exact result into Rd (a comparison writes none) and
the exact flags; a logical operation leaves V, and C unless it shifts (`49_thumb.md` R804 to R832, R834, R835). -/
def Obligations.ThumbArithmetic : Prop :=
  ∀ (i : Instr) (s : State) (op : DpOp) (a b : Word) (shc : Bool) (rd : LowReg),
    thumbAlu i (fun r => s.regs.read (lowCell r)) s.cpsr = some (op, a, b, shc, rd) →
    exec i s = .next { s with
      regs := if dpComparison op then s.regs else s.regs.write (lowCell rd) (exactResult op a b s.cpsr.c)
      cpsr := exactFlags op a b shc s.cpsr }

/-- Thumb MUL: the product, N and Z of it, V unchanged, and C some value the model leaves free; Rd = Rs faults
(`49_thumb.md` R833; notes/assumptions/5.md). -/
def Obligations.ThumbMultiply : Prop :=
  ∀ (rs rd : LowReg) (s : State),
    let r := BitVec.ofNat 32 ((s.regs.read (lowCell rs)).toNat * (s.regs.read (lowCell rd)).toNat)
    (rd ≠ rs →
      ∃ free, exec (.tMul rs rd) s = .next { s with
        regs := s.regs.write (lowCell rd) r
        cpsr := { s.cpsr with n := r.getLsbD 31, z := decide (r = 0), c := free }
        draws := s.draws + 1 }) ∧
    (rd = rs → exec (.tMul rs rd) s = .fault (stop (.unpredictable .thumbMulRdIsRm) s))

/-- ADD, CMP and MOV on high registers: no flag but CMP's; a result in R15 is a jump; two low registers fault
(`49_thumb.md` R836 to R838). -/
def Obligations.ThumbHighRegisters : Prop :=
  ∀ (h1 h2 : Bool) (rs rd : LowReg) (s : State) (cs cd : RegCell),
    let src : Reg := BitVec.ofBool h2 ++ rs
    let dst : Reg := BitVec.ofBool h1 ++ rd
    let put := fun (v : Word) => if dst = 15 then writePc v s else { s with regs := s.regs.write cd v }
    Names s src cs → Names s dst cd →
    ((h1 || h2) = true →
      exec (.tAddHi h1 h2 rs rd) s = .next (put (s.regs.read cd + s.regs.read cs)) ∧
      exec (.tMovHi h1 h2 rs rd) s = .next (put (s.regs.read cs)) ∧
      exec (.tCmpHi h1 h2 rs rd) s =
        .next { s with cpsr := exactFlags .cmp (s.regs.read cd) (s.regs.read cs) s.cpsr.c s.cpsr }) ∧
    ((h1 || h2) = false →
      exec (.tAddHi h1 h2 rs rd) s = .fault (stop (.unpredictable .hiRegLowOperands) s) ∧
      exec (.tMovHi h1 h2 rs rd) s = .fault (stop (.unpredictable .hiRegLowOperands) s) ∧
      exec (.tCmpHi h1 h2 rs rd) s = .fault (stop (.unpredictable .hiRegLowOperands) s))

/-- The Thumb loads of formats T6 to T11: the value of the load's kind at its address into Rd (`49_thumb.md` R840, R841,
R844, R845, R847 to R849, R851, R853, R855, R857). -/
def Obligations.ThumbLoads : Prop :=
  ∀ (i : Instr) (s : State) (sp : Word) (k : LoadKind) (rd : LowReg) (a : Word),
    (usesStackPointer i = true → readReg 13 s = .ok sp) →
    thumbLoad i (fun r => s.regs.read (lowCell r)) sp s.regs.pc = some (k, rd, a) →
    exec i s = .next { (loadOf k a s).2 with regs := s.regs.write (lowCell rd) (loadOf k a s).1 }

/-- The Thumb stores of formats T7 to T11: the word, low halfword or low byte of Rd at its address (`49_thumb.md` R841 to
R843, R846, R850, R852, R854, R856). -/
def Obligations.ThumbStores : Prop :=
  ∀ (i : Instr) (s : State) (sp : Word) (w : Width) (rd : LowReg) (a : Word),
    (usesStackPointer i = true → readReg 13 s = .ok sp) →
    thumbStore i (fun r => s.regs.read (lowCell r)) sp = some (w, rd, a) →
    exec i s = .next (match w with
      | .byte => write8 a (s.regs.read (lowCell rd)) s
      | .half => write16 a (s.regs.read (lowCell rd)) s
      | .word => write32 a (s.regs.read (lowCell rd)) s)

/-- The Thumb address arithmetic on PC and SP, without flags (`49_thumb.md` R862 to R865). -/
def Obligations.ThumbAddresses : Prop :=
  ∀ (rd : LowReg) (word8 : BitVec 8) (sword7 : BitVec 7) (s : State),
    exec (.tAddPc rd word8) s =
      .next { s with regs := s.regs.write (lowCell rd) ((s.regs.pc &&& ~~~3#32) + BitVec.ofNat 32 (4 * word8.toNat)) } ∧
    ∀ c13, Names s 13 c13 →
      exec (.tAddSpRd rd word8) s =
        .next { s with regs := s.regs.write (lowCell rd) (s.regs.read c13 + BitVec.ofNat 32 (4 * word8.toNat)) } ∧
      exec (.tAddSpImm sword7) s =
        .next { s with regs := s.regs.write c13 (s.regs.read c13 + BitVec.ofNat 32 (4 * sword7.toNat)) } ∧
      exec (.tSubSpImm sword7) s =
        .next { s with regs := s.regs.write c13 (s.regs.read c13 - BitVec.ofNat 32 (4 * sword7.toNat)) }

/-- PUSH and POP. PUSH stores the listed low registers, then LR, at rising addresses below SP, and moves SP down. POP loads
the words from SP up into the listed low registers, moves SP up, then jumps to the next word, the state staying Thumb. An
empty list faults (`49_thumb.md` R866, R867). -/
def Obligations.ThumbStack : Prop :=
  ∀ (r : Bool) (rlist : BitVec 8) (s : State) (c13 c14 : RegCell), Names s 13 c13 → Names s 14 c14 →
    let low := (List.finRange 8).filter (fun j => rlist.getLsbD j.val)
    let cells := low.map fun j => lowCell (BitVec.ofFin j)
    let n := low.length + r.toNat
    let sp := s.regs.read c13
    let vs := cells.map s.regs.read ++ (if r then [s.regs.read c14] else [])
    let l := loadWords n sp s
    let popped : State := { l.2 with regs := (writeAll cells l.1 s.regs).write c13 (sp + BitVec.ofNat 32 (4 * n)) }
    (r = true ∨ rlist ≠ 0 →
      exec (.tPush r rlist) s =
        .next { storeWords vs (sp - BitVec.ofNat 32 (4 * n)) s with
          regs := s.regs.write c13 (sp - BitVec.ofNat 32 (4 * n)) }) ∧
    (r = false → rlist ≠ 0 → exec (.tPop r rlist) s = .next popped) ∧
    (r = true → ∃ v, l.1.getLast? = some v ∧ exec (.tPop r rlist) s = .next (writePc v popped)) ∧
    (r = false → rlist = 0 →
      exec (.tPush r rlist) s = .fault (stop (.unpredictable .emptyRegisterList) s) ∧
      exec (.tPop r rlist) s = .fault (stop (.unpredictable .emptyRegisterList) s))

/-- The Thumb multiple transfers: the listed registers from the base up and the base moved past them; LDMIA leaves a
listed base as loaded; an empty list faults, and STMIA with a listed base that is not the lowest (`49_thumb.md` R868,
R869). -/
def Obligations.ThumbMultiple : Prop :=
  ∀ (rb : LowReg) (rlist : BitVec 8) (s : State),
    let low := (List.finRange 8).filter (fun j => rlist.getLsbD j.val)
    let cells := low.map fun j => lowCell (BitVec.ofFin j)
    let base := s.regs.read (lowCell rb)
    let final := base + BitVec.ofNat 32 (4 * low.length)
    let l := loadWords low.length base s
    let loaded := writeAll cells l.1 s.regs
    (rlist ≠ 0 →
      exec (.tLdmia rb rlist) s =
        .next { l.2 with regs := if rlist.getLsbD rb.toNat then loaded else loaded.write (lowCell rb) final }) ∧
    (rlist ≠ 0 → (rlist.getLsbD rb.toNat = true → ∀ j : Nat, j < rb.toNat → rlist.getLsbD j = false) →
      exec (.tStmia rb rlist) s =
        .next { storeWords (cells.map s.regs.read) base s with regs := s.regs.write (lowCell rb) final }) ∧
    (rlist = 0 →
      exec (.tLdmia rb rlist) s = .fault (stop (.unpredictable .emptyRegisterList) s) ∧
      exec (.tStmia rb rlist) s = .fault (stop (.unpredictable .emptyRegisterList) s)) ∧
    (∀ j : Nat, rlist.getLsbD rb.toNat = true → j < rb.toNat → rlist.getLsbD j = true →
      exec (.tStmia rb rlist) s = .fault (stop (.unpredictable .stmWritebackBaseNotFirst) s))

/-- The Thumb branches: conditional, unconditional, and the two halves of BL, the first of which only writes LR
(`49_thumb.md` R876, R878 to R880). -/
def Obligations.ThumbBranches : Prop :=
  ∀ (c : Cond) (soff8 : BitVec 8) (off11 : BitVec 11) (s : State),
    (Cond.passed c s.cpsr = true →
      exec (.tBCond c soff8) s = .next (writePc (s.regs.pc + BitVec.ofInt 32 (soff8.toInt * 2)) s)) ∧
    (Cond.passed c s.cpsr = false → exec (.tBCond c soff8) s = .next s) ∧
    exec (.tB off11) s = .next (writePc (s.regs.pc + BitVec.ofInt 32 (off11.toInt * 2)) s) ∧
    ∀ c14, Names s 14 c14 →
      exec (.tBlFirst off11) s =
        .next { s with regs := s.regs.write c14 (s.regs.pc + BitVec.ofInt 32 (off11.toInt * 4096)) } ∧
      exec (.tBlSecond off11) s =
        .next (writePc (s.regs.read c14 + BitVec.ofNat 32 (2 * off11.toNat))
          { s with regs := s.regs.write c14 ((s.regs.pc - 2) ||| 1) })

/-! ### Frames -/

/-- The register frame of every instruction that raises no exception: the program counter apart, only the registers the
spec names as its destinations, or that its addressing writes back, can change. -/
def Obligations.RegisterFrame : Prop :=
  ∀ (i : Instr) (s t : State) (cell : RegCell), exec i s = .next t → raises i = none → cell ≠ .pc →
    (∀ r ∈ destRegs i, resolve (destMode i s) r.toNat ≠ .ok cell) → t.regs.read cell = s.regs.read cell

/-- The memory frame of every instruction: outside the bytes it stores to, every byte reads as before, and one that stores
nothing leaves the whole store as it is. -/
def Obligations.MemoryFrame : Prop :=
  ∀ (i : Instr) (s t : State), exec i s = .next t →
    (∀ k, k ∉ storeCells i s → t.mem.read k = s.mem.read k) ∧ (storeCells i s = [] → ∀ k, t.mem.read k = s.mem.read k)

/-- The frame of everything else. Of the CPSR an instruction that raises no exception changes only what the spec names,
of the saved status words nothing but by MSR, and the open-bus latch only by a read of memory; no instruction touches the
parameters, the pipeline slots and flags, the loaded sizes, the lock, the lines or the recorded fault. -/
def Obligations.StatusFrame : Prop :=
  ∀ (i : Instr) (s t : State), exec i s = .next t →
    (raises i = none → (statusEffect i).Allows s.cpsr t.cpsr ∧
      ((∀ c mask rm, i ≠ .msrReg c true mask rm) → (∀ c mask rot imm8, i ≠ .msrImm c true mask rot imm8) →
        t.spsr = s.spsr)) ∧
    (readsMemory i = false → t.openBusLatch = s.openBusLatch) ∧
    t.config = s.config ∧ t.armFetched = s.armFetched ∧ t.armDecoding = s.armDecoding ∧
    t.armExecuting = s.armExecuting ∧ t.thFetched = s.thFetched ∧ t.thDecoding = s.thDecoding ∧
    t.thExecuting = s.thExecuting ∧ t.flushFlag = s.flushFlag ∧ t.primed = s.primed ∧ t.romSize = s.romSize ∧
    t.bootLoaded = s.bootLoaded ∧ t.biosLocked = s.biosLocked ∧ t.irqLine = s.irqLine ∧ t.fiqLine = s.fiqLine ∧
    t.faulted = s.faulted

/-! ### The whole machine -/

/-- An instruction changes the program counter, or the T bit, only with a flush; and a flushed program counter is aligned
(`40_pipeline.md` R358, R361, `70_reset_and_hazards.md` R964). -/
def Obligations.OnlyAFlushMovesPc : Prop :=
  ∀ (i : Instr) (s t : State), exec i s = .next t → s.flushRequested = false →
    (t.flushRequested = false ∧ t.regs.pc = s.regs.pc ∧ t.cpsr.t = s.cpsr.t) ∨
      (t.flushRequested = true ∧ PcAligned t)

/-- Every step keeps the invariant: canonical memory, an aligned program counter, live slots, no flush left pending. -/
def Obligations.StepKeepsInv : Prop :=
  ∀ s t : State, Inv s → step s = .next t → Inv t

/-- No step changes the parameters, the loaded sizes, the lock or a byte of the boot ROM (`20_memory.md` R172). -/
def Obligations.BootRomIsConstant : Prop :=
  ∀ s t : State, step s = .next t →
    t.config = s.config ∧ t.romSize = s.romSize ∧ t.bootLoaded = s.bootLoaded ∧ t.biosLocked = s.biosLocked ∧
    ∀ k, k < 0x4000 → t.mem.read k = s.mem.read k

/-- User mode is left only by an exception, and until then no step changes a control bit of the CPSR but T, a saved status
word but the dummy, or a register banked for another mode (`60_exceptions.md` R920, R922, `45_arm_psr_transfer.md` R604). -/
def Obligations.UserModeIsConfined : Prop :=
  ∀ s t : State, step s = .next t → s.cpsr.mode = 0x10 →
    (t.cpsr.mode = 0x10 ∧ t.cpsr.i = s.cpsr.i ∧ t.cpsr.f = s.cpsr.f ∧
      t.spsr = { s.spsr with dummy := t.spsr.dummy } ∧
      ∀ cell ∈ ([.r8fiq, .r9fiq, .r10fiq, .r11fiq, .r12fiq, .r13fiq, .r14fiq, .r13irq, .r14irq, .r13svc, .r14svc,
        .r13abt, .r14abt, .r13und, .r14und] : List RegCell), t.regs.read cell = s.regs.read cell) ∨
    (s.config.excPolicy = .trap ∧
      (pendingInterrupt s ≠ none ∨ ∃ i, executingInstr s = some i ∧ raises i ≠ none))

/-- A self-branch whose bytes stand in memory, 0xEAFFFFFE in ARM state or 0xE7FE in Thumb state, steps to itself: nothing
changes but the latch, and the decoding and the fetched slot of the encoding in force (`40_pipeline.md` R371,
`70_reset_and_hazards.md` R973). -/
def Obligations.SelfBranchRepeats : Prop :=
  ∀ (s : State) (k : Nat → Nat), s.faulted = none → s.primed = true → FlushQuiet s → PcAligned s →
    atSelfBranch s = true → (s.config.excPolicy = .fault → pendingInterrupt s = none) →
    (s.cpsr.t = false →
      (∀ j : Nat, j < 4 → readCell s (s.regs.pc - 8 + BitVec.ofNat 32 j) = some (k j)) →
      s.mem.read (k 3) ++ s.mem.read (k 2) ++ s.mem.read (k 1) ++ s.mem.read (k 0) = 0xEAFFFFFE#32 →
      ∃ l d, step s = .next { s with openBusLatch := l, armFetched := none, armDecoding := d } ∧
        executingIsSelfBranch { s with openBusLatch := l, armFetched := none, armDecoding := d } = true) ∧
    (s.cpsr.t = true →
      (∀ j : Nat, j < 2 → readCell s (s.regs.pc - 4 + BitVec.ofNat 32 j) = some (k j)) →
      s.mem.read (k 1) ++ s.mem.read (k 0) = 0xE7FE#16 →
      ∃ l d, step s = .next { s with openBusLatch := l, thFetched := none, thDecoding := d } ∧
        executingIsSelfBranch { s with openBusLatch := l, thFetched := none, thDecoding := d } = true)
end

