-- ==== Sys2Proof/Laws/Memory.lean ====
section
/-!
SUPPORT. The laws of the byte store: a read after a write, and the canonical form under every memory operation.
-/

namespace Sys2Proof.Machine

@[simp] theorem Memory.read_nil (a : Nat) : Memory.read [] a = unlisted a := rfl

theorem Memory.read_cons (k : Nat) (v : Byte) (m : Memory) (a : Nat) :
    Memory.read ((k, v) :: m) a = if k = a then v else Memory.read m a := rfl

/-- An address below every listed one reads as unlisted. -/
theorem Memory.read_of_lt {lo a : Nat} (m : Memory) (h : Memory.wfFrom lo m = true) (ha : a < lo) :
    Memory.read m a = unlisted a := by
  induction m generalizing lo with
  | nil => rfl
  | cons c m ih =>
    obtain ⟨k, v⟩ := c
    simp only [Memory.wfFrom, Bool.and_eq_true, decide_eq_true_eq] at h
    rw [Memory.read_cons, if_neg (by omega)]
    exact ih h.2 (by omega)

/-- The canonical form from `lo` is one from every lower bound. -/
theorem Memory.wfFrom_mono {lo lo' : Nat} (m : Memory) (h : Memory.wfFrom lo m = true) (hl : lo' ≤ lo) :
    Memory.wfFrom lo' m = true := by
  cases m with
  | nil => rfl
  | cons c m =>
    obtain ⟨k, v⟩ := c
    simp only [Memory.wfFrom, Bool.and_eq_true, decide_eq_true_eq] at h ⊢
    exact ⟨⟨by omega, h.1.2⟩, h.2⟩

/-- A write changes no other address, in every memory. -/
theorem Memory.read_write_of_ne (m : Memory) (a : Nat) (b : Byte) {k : Nat} (h : k ≠ a) :
    Memory.read (Memory.write m a b) k = Memory.read m k := by
  induction m with
  | nil =>
    simp only [Memory.write]
    split
    · rfl
    · rw [Memory.read_cons, if_neg (Ne.symm h)]
  | cons c m ih =>
    obtain ⟨k', v⟩ := c
    simp only [Memory.write]
    split
    · split
      · rfl
      · rw [Memory.read_cons, if_neg (Ne.symm h)]
    · split
      · rename_i hk
        subst hk
        split
        · rw [Memory.read_cons, if_neg (Ne.symm h)]
        · rw [Memory.read_cons, Memory.read_cons, if_neg (Ne.symm h), if_neg (Ne.symm h)]
      · rw [Memory.read_cons, Memory.read_cons, ih]

/-- A read of the address just written gives the byte written. -/
theorem Memory.read_write_from {lo : Nat} (m : Memory) (a : Nat) (b : Byte) (h : Memory.wfFrom lo m = true) :
    Memory.read (Memory.write m a b) a = b := by
  induction m generalizing lo with
  | nil =>
    simp only [Memory.write]
    split
    · rename_i hb
      rw [hb]
      rfl
    · rw [Memory.read_cons, if_pos rfl]
  | cons c m ih =>
    obtain ⟨k, v⟩ := c
    have h' := h
    simp only [Memory.wfFrom, Bool.and_eq_true, decide_eq_true_eq] at h
    simp only [Memory.write]
    split
    · split
      · rename_i hb
        rw [hb, Memory.read_cons, if_neg (by omega)]
        exact Memory.read_of_lt m h.2 (by omega)
      · rw [Memory.read_cons, if_pos rfl]
    · split
      · rename_i hk
        subst hk
        split
        · rename_i hb
          rw [hb]
          exact Memory.read_of_lt m h.2 (by omega)
        · rw [Memory.read_cons, if_pos rfl]
      · rename_i hk
        rw [Memory.read_cons, if_neg (fun e => hk e.symm)]
        exact ih h.2

theorem Memory.read_write_self (m : Memory) (a : Nat) (b : Byte) (h : m.wf = true) :
    Memory.read (Memory.write m a b) a = b := Memory.read_write_from m a b h

/-- A write keeps the canonical form. -/
theorem Memory.wfFrom_write {lo : Nat} (m : Memory) (a : Nat) (b : Byte) (h : Memory.wfFrom lo m = true)
    (ha : lo ≤ a) : Memory.wfFrom lo (Memory.write m a b) = true := by
  induction m generalizing lo with
  | nil =>
    simp only [Memory.write]
    split
    · rfl
    · rename_i hb
      simp [Memory.wfFrom, ha, hb]
  | cons c m ih =>
    obtain ⟨k, v⟩ := c
    have h' := h
    simp only [Memory.wfFrom, Bool.and_eq_true, decide_eq_true_eq] at h
    simp only [Memory.write]
    split
    · rename_i hk
      split
      · exact h'
      · rename_i hb
        simp only [Memory.wfFrom, Bool.and_eq_true, decide_eq_true_eq]
        exact ⟨⟨ha, by simpa using hb⟩, ⟨by omega, h.1.2⟩, h.2⟩
    · split
      · rename_i hk
        subst hk
        split
        · exact Memory.wfFrom_mono m h.2 (by omega)
        · rename_i hb
          simp only [Memory.wfFrom, Bool.and_eq_true, decide_eq_true_eq]
          exact ⟨⟨ha, by simpa using hb⟩, h.2⟩
      · simp only [Memory.wfFrom, Bool.and_eq_true, decide_eq_true_eq]
        exact ⟨h.1, ih h.2 (by omega)⟩

theorem Memory.wf_write (m : Memory) (a : Nat) (b : Byte) (h : m.wf = true) : (Memory.write m a b).wf = true :=
  Memory.wfFrom_write m a b h (Nat.zero_le a)

theorem Memory.wf_writeList (m : Memory) (a : Nat) (bs : List Byte) (h : m.wf = true) :
    (Memory.writeList m a bs).wf = true := by
  induction bs generalizing m a with
  | nil => exact h
  | cons b bs ih => exact ih _ _ (Memory.wf_write m a b h)

/-- Dropping entries keeps the canonical form. -/
theorem Memory.wfFrom_filter {lo : Nat} (m : Memory) (p : Host.Cell → Bool) (h : Memory.wfFrom lo m = true) :
    Memory.wfFrom lo (m.filter p) = true := by
  induction m generalizing lo with
  | nil => rfl
  | cons c m ih =>
    obtain ⟨k, v⟩ := c
    simp only [Memory.wfFrom, Bool.and_eq_true, decide_eq_true_eq] at h
    rw [List.filter_cons]
    split
    · simp only [Memory.wfFrom, Bool.and_eq_true, decide_eq_true_eq]
      exact ⟨h.1, ih h.2⟩
    · exact Memory.wfFrom_mono _ (ih h.2) (by omega)

theorem Memory.wf_filter (m : Memory) (p : Host.Cell → Bool) (h : m.wf = true) : Memory.wf (m.filter p) = true :=
  Memory.wfFrom_filter m p h

/-- What a filtered memory reads, when the filter looks at the address alone. -/
theorem Memory.read_filter (m : Memory) (p : Nat → Bool) (k : Nat) :
    Memory.read (m.filter fun c => p c.1) k = if p k then Memory.read m k else unlisted k := by
  induction m with
  | nil => simp
  | cons c m ih =>
    obtain ⟨k', v⟩ := c
    rw [List.filter_cons]
    by_cases hp : p k' = true
    · rw [if_pos hp, Memory.read_cons, Memory.read_cons, ih]
      by_cases hk : k' = k
      · subst hk
        simp [hp]
      · simp [hk]
    · rw [if_neg hp, ih, Memory.read_cons]
      by_cases hk : k' = k
      · subst hk
        simp [hp]
      · simp [hk]

/-- A written list, read back: the listed byte inside it, the old byte outside. -/
theorem Memory.read_writeList (m : Memory) (a : Nat) (bs : List Byte) (k : Nat) (h : m.wf = true) :
    Memory.read (Memory.writeList m a bs) k =
      if a ≤ k ∧ k < a + bs.length then bs.getD (k - a) 0 else Memory.read m k := by
  induction bs generalizing m a with
  | nil =>
    rw [if_neg (by simp only [List.length_nil]; omega)]
    rfl
  | cons b bs ih =>
    rw [show Memory.writeList m a (b :: bs) = Memory.writeList (Memory.write m a b) (a + 1) bs from rfl,
      ih _ _ (Memory.wf_write m a b h)]
    by_cases hk : k = a
    · subst hk
      rw [if_neg (by omega), if_pos ⟨le_refl _, by simp⟩, Memory.read_write_self m k b h]
      simp
    · rw [Memory.read_write_of_ne m a b hk]
      by_cases hin : a + 1 ≤ k ∧ k < a + 1 + bs.length
      · rw [if_pos hin, if_pos ⟨by omega, by simp only [List.length_cons]; omega⟩,
          show k - a = (k - (a + 1)) + 1 by omega]
        simp
      · rw [if_neg hin, if_neg (by simp only [List.length_cons]; omega)]

end Sys2Proof.Machine
end

