-- ==== Sys2Proof/Laws/Bus.lean ====
section
/-!
SUPPORT. The laws of the bus: a read changes the open-bus latch alone, a write the byte store alone, and only at the
storage addresses it names.
-/

namespace Sys2Proof.Machine

/-! ### Reads -/

/-- A byte read answers the inspected byte and leaves it in the latch. -/
theorem readByte_eq (a : Word) (s : State) :
    readByte a s = (inspectByte a s, { s with openBusLatch := inspectByte a s }) := by
  unfold readByte inspectByte
  split <;> rfl

/-- The storage address of a byte read does not depend on the latch. -/
@[simp] theorem readCell_latch (a : Word) (s : State) (l : Byte) :
    readCell { s with openBusLatch := l } a = readCell s a := rfl

/-- `s'` is `s` but for the open-bus latch. -/
def OnlyLatch (s s' : State) : Prop := ∃ l, s' = { s with openBusLatch := l }

theorem readByte_onlyLatch (a : Word) (s : State) : OnlyLatch s (readByte a s).2 :=
  ⟨inspectByte a s, by rw [readByte_eq]⟩

theorem OnlyLatch.refl (s : State) : OnlyLatch s s := ⟨s.openBusLatch, rfl⟩

theorem OnlyLatch.trans {s t u : State} (h : OnlyLatch s t) (h' : OnlyLatch t u) : OnlyLatch s u := by
  obtain ⟨l, rfl⟩ := h
  obtain ⟨l', rfl⟩ := h'
  exact ⟨l', rfl⟩

theorem read8_onlyLatch (a : Word) (s : State) : OnlyLatch s (read8 a s).2 := readByte_onlyLatch a s

theorem read16_onlyLatch (a : Word) (s : State) : OnlyLatch s (read16 a s).2 :=
  (readByte_onlyLatch _ _).trans (readByte_onlyLatch _ _)

theorem read32_onlyLatch (a : Word) (s : State) : OnlyLatch s (read32 a s).2 :=
  (((readByte_onlyLatch _ _).trans (readByte_onlyLatch _ _)).trans (readByte_onlyLatch _ _)).trans
    (readByte_onlyLatch _ _)

/-! ### Writes -/

/-- `s'` is `s` but for the byte store, which differs only at the storage addresses in `ks` and keeps its canonical
form. -/
def OnlyStores (ks : List Nat) (s s' : State) : Prop :=
  ∃ m, s' = { s with mem := m } ∧ (∀ k, k ∉ ks → Memory.read m k = Memory.read s.mem k) ∧
    (s.mem.wf = true → m.wf = true)

/-- The storage address of a byte write depends on the size of the cartridge ROM alone. -/
theorem writeCell_congr {s s' : State} (h : s'.romSize = s.romSize) (a : Word) : writeCell s' a = writeCell s a := by
  unfold writeCell backed
  rw [h]

theorem storedCells_congr {s s' : State} (h : s'.romSize = s.romSize) (a : Word) (n : Nat) :
    storedCells s' a n = storedCells s a n := by
  unfold storedCells
  simp only [writeCell_congr h]

theorem OnlyStores.refl (s : State) : OnlyStores [] s s := ⟨s.mem, rfl, fun _ _ => rfl, id⟩

theorem OnlyStores.romSize {ks : List Nat} {s s' : State} (h : OnlyStores ks s s') : s'.romSize = s.romSize := by
  obtain ⟨m, rfl, -, -⟩ := h
  rfl

theorem OnlyStores.trans {ks ks' : List Nat} {s t u : State} (h : OnlyStores ks s t) (h' : OnlyStores ks' t u) :
    OnlyStores (ks ++ ks') s u := by
  obtain ⟨m, rfl, hm, hw⟩ := h
  obtain ⟨m', rfl, hm', hw'⟩ := h'
  refine ⟨m', rfl, fun k hk => ?_, fun w => hw' (hw w)⟩
  rw [List.mem_append, not_or] at hk
  rw [hm' k hk.2, hm k hk.1]

theorem OnlyStores.mono {ks ks' : List Nat} {s t : State} (h : OnlyStores ks s t) (hk : ∀ k, k ∈ ks → k ∈ ks') :
    OnlyStores ks' s t := by
  obtain ⟨m, rfl, hm, hw⟩ := h
  exact ⟨m, rfl, fun k hk' => hm k fun h => hk' (hk k h), hw⟩

theorem writeByte_onlyStores (a : Word) (b : Byte) (s : State) :
    OnlyStores ((writeCell s a).toList) s (writeByte a b s) := by
  unfold writeByte
  cases h : writeCell s a with
  | none => exact (OnlyStores.refl s).mono (by simp)
  | some k =>
    refine ⟨s.mem.write k b, rfl, fun k' hk' => ?_, Memory.wf_write _ _ _⟩
    exact Memory.read_write_of_ne _ _ _ (by simpa using hk')

theorem write8_onlyStores (a v : Word) (s : State) : OnlyStores (storedCells s a 1) s (write8 a v s) := by
  refine (writeByte_onlyStores a _ s).mono fun k hk => ?_
  simpa [storedCells, List.range_succ] using hk

theorem write16_onlyStores (a v : Word) (s : State) :
    OnlyStores (storedCells s (alignHalf a) 2) s (write16 a v s) := by
  have h0 := writeByte_onlyStores (alignHalf a) (v.extractLsb' 0 8) s
  have h1 := writeByte_onlyStores (alignHalf a + 1) (v.extractLsb' 8 8) (writeByte (alignHalf a) (v.extractLsb' 0 8) s)
  refine (h0.trans h1).mono fun k hk => ?_
  simp only [writeCell_congr h0.romSize, List.mem_append, Option.mem_toList] at hk
  simp only [storedCells, List.mem_filterMap, List.mem_range]
  rcases hk with hk | hk
  · exact ⟨0, by omega, by simpa using hk⟩
  · exact ⟨1, by omega, by simpa using hk⟩

theorem write32_onlyStores (a v : Word) (s : State) :
    OnlyStores (storedCells s (alignWord a) 4) s (write32 a v s) := by
  set v' := storedWord a v s with hv
  have h0 := writeByte_onlyStores (alignWord a) (v'.extractLsb' 0 8) s
  have h1 := writeByte_onlyStores (alignWord a + 1) (v'.extractLsb' 8 8) (writeByte (alignWord a) (v'.extractLsb' 0 8) s)
  have h01 := h0.trans h1
  have h2 := writeByte_onlyStores (alignWord a + 2) (v'.extractLsb' 16 8) _ |> h01.trans
  have h3 := writeByte_onlyStores (alignWord a + 3) (v'.extractLsb' 24 8) _ |> h2.trans
  refine h3.mono fun k hk => ?_
  simp only [writeCell_congr h0.romSize, writeCell_congr h01.romSize, writeCell_congr h2.romSize, List.mem_append,
    Option.mem_toList] at hk
  simp only [storedCells, List.mem_filterMap, List.mem_range]
  rcases hk with ((hk | hk) | hk) | hk
  · exact ⟨0, by omega, by simpa using hk⟩
  · exact ⟨1, by omega, by simpa using hk⟩
  · exact ⟨2, by omega, by simpa using hk⟩
  · exact ⟨3, by omega, by simpa using hk⟩

end Sys2Proof.Machine
end

