-- ==== Sys2Proof/Laws/Flags.lean ====
section
/-!
SUPPORT. The laws of the adder and of the flags: the model's bit formulas are exact arithmetic.
-/

namespace Sys2Proof.Machine

theorem addWithCarry_result (a b : Word) (c : Bool) : (addWithCarry a b c).result = a + b + flagWord c := by
  apply BitVec.eq_of_toNat_eq
  cases c <;> simp [addWithCarry, flagWord]

theorem addWithCarry_carry (a b : Word) (c : Bool) :
    (addWithCarry a b c).carry = decide (2 ^ 32 ≤ a.toNat + b.toNat + c.toNat) := rfl

/-- The two's-complement value of a 32-bit number. -/
def signedValue (x : Nat) : Int := if x < 2 ^ 31 then x else (x : Int) - 2 ^ 32

theorem toInt_eq_signedValue (a : Word) : a.toInt = signedValue a.toNat := by
  rw [BitVec.toInt_eq_toNat_cond]
  unfold signedValue
  split_ifs <;> omega

theorem msb_eq (a : Word) : a.msb = decide (2 ^ 31 ≤ a.toNat) := BitVec.msb_eq_decide a

theorem fitsSigned_iff (v : Int) : fitsSigned v = true ↔ -(2 ^ 31) ≤ v ∧ v < 2 ^ 31 := by
  unfold fitsSigned
  rw [Bool.and_eq_true, decide_eq_true_eq, decide_eq_true_eq]

/-- The sign test on natural numbers. -/
theorem signs_overflow {x y z : Nat} (hx : x < 2 ^ 32) (hy : y < 2 ^ 32) (hz : z ≤ 1) :
    ((decide (2 ^ 31 ≤ x) == decide (2 ^ 31 ≤ y)) && (decide (2 ^ 31 ≤ (x + y + z) % 2 ^ 32) != decide (2 ^ 31 ≤ x))) =
      !fitsSigned (signedValue x + signedValue y + z) := by
  have hf := fitsSigned_iff (signedValue x + signedValue y + z)
  generalize fitsSigned (signedValue x + signedValue y + z) = f at hf
  unfold signedValue at hf
  by_cases h1 : 2 ^ 31 ≤ x <;> by_cases h2 : 2 ^ 31 ≤ y <;> by_cases h3 : 2 ^ 31 ≤ (x + y + z) % 2 ^ 32 <;>
    cases f <;> simp only [h1, h2, h3, decide_true, decide_false] <;> first
    | rfl
    | (exfalso
       simp only [Bool.false_eq_true, false_iff, true_iff] at hf
       split_ifs at hf <;> omega)

/-- The sign test of the adder is the test whether the exact signed sum fits (`41_shifter_alu.md` R416). -/
theorem addWithCarry_overflow (a b : Word) (c : Bool) :
    (addWithCarry a b c).overflow = !fitsSigned (a.toInt + b.toInt + c.toNat) := by
  have h := signs_overflow a.isLt b.isLt (z := c.toNat) (by cases c <;> simp)
  rw [← toInt_eq_signedValue, ← toInt_eq_signedValue] at h
  rw [← h]
  simp only [addWithCarry, msb_eq, BitVec.toNat_ofNat]

theorem not_toNat (b : Word) : (~~~b).toNat = 2 ^ 32 - 1 - b.toNat := by simp

theorem not_toInt (b : Word) : (~~~b).toInt = -b.toInt - 1 := by
  have := BitVec.toInt_not (x := b)
  have hb := b.isLt
  rw [BitVec.toInt_eq_toNat_cond, BitVec.toInt_eq_toNat_cond, not_toNat]
  split_ifs <;> omega

theorem add_not (a b : Word) (c : Bool) : a + ~~~b + flagWord c = a - b - flagWord (!c) := by
  have h : ~~~b = -b - (1 : Word) := by
    rw [BitVec.neg_eq_not_add b]
    simp
  rw [h]
  cases c
  · simp only [flagWord, Bool.not_false, if_true, Bool.false_eq_true, if_false]
    ring
  · simp only [flagWord, Bool.not_true, if_true, Bool.false_eq_true, if_false]
    ring

theorem carry_not (a b : Word) (c : Bool) :
    decide (2 ^ 32 ≤ a.toNat + (~~~b).toNat + c.toNat) = decide (b.toNat + (!c).toNat ≤ a.toNat) := by
  rw [not_toNat]
  have hb := b.isLt
  cases c <;> simp <;> omega

theorem fitsSigned_congr {x y : Int} (h : x = y) : fitsSigned x = fitsSigned y := by rw [h]

/-- What the model computes of an opcode is the exact result (`42_arm_data_processing.md` R460 to R475). -/
theorem dpCompute_result (op : DpOp) (a b : Word) (shc c : Bool) :
    (dpCompute op a b shc c).result = exactResult op a b c := by
  cases op <;> simp only [dpCompute, exactResult, subtract, addWithCarry_result, add_not] <;> simp [flagWord]

theorem dpCompute_carry (op : DpOp) (a b : Word) (shc c : Bool) :
    (dpCompute op a b shc c).carry = exactCarry op a b c shc := by
  cases op <;> simp only [dpCompute, exactCarry, subtract, addWithCarry_carry, carry_not] <;> simp

theorem dpCompute_overflow (op : DpOp) (a b : Word) (shc c v : Bool) (h : dpLogical op = false) :
    (dpCompute op a b shc c).overflow = exactOverflow op a b c v := by
  cases op <;> try cases h
  all_goals
    refine (addWithCarry_overflow _ _ _).trans (congrArg (fun b => !b) (fitsSigned_congr ?_))
    try rw [not_toInt]
    cases c <;> simp <;> ring

/-- The flags the model writes are the exact flags (`42_arm_data_processing.md` R451, R453, `41_shifter_alu.md` R419). -/
theorem dpFlags_eq (op : DpOp) (a b : Word) (shc : Bool) (p : Psr) :
    dpFlags op (dpCompute op a b shc p.c) p = exactFlags op a b shc p := by
  unfold dpFlags exactFlags
  by_cases h : dpLogical op = true
  · rw [if_pos h]
    simp only [Psr.setNZC, Psr.setNZ, dpCompute_result, dpCompute_carry, BitVec.msb_eq_getLsbD_last]
    have hv : exactOverflow op a b p.c p.v = p.v := by cases op <;> first | rfl | cases h
    rw [hv]
    rfl
  · rw [if_neg h]
    simp only [Psr.setNZCV, Psr.setNZC, Psr.setNZ, dpCompute_result, dpCompute_carry, BitVec.msb_eq_getLsbD_last,
      dpCompute_overflow op a b shc p.c p.v (by simpa using h)]
    rfl

end Sys2Proof.Machine
end

