-- ==== Sys2Proof/Laws/Registers.lean ====
section
/-!
SUPPORT. The laws of the status words, the register bank and register access: which word an index names, and what a
read and a write of it do.
-/

namespace Sys2Proof.Machine

/-! ### Status words -/

/-- The bits of a status record's word. -/
theorem Psr.getLsbD_toWord (p : Psr) (k : Nat) :
    p.toWord.getLsbD k = (BitVec.ofBool p.n ++ BitVec.ofBool p.z ++ BitVec.ofBool p.c ++ BitVec.ofBool p.v ++
      p.reserved ++ BitVec.ofBool p.i ++ BitVec.ofBool p.f ++ BitVec.ofBool p.t ++ p.mode).getLsbD k := rfl

/-- A status record loses no bit of its word. -/
theorem Psr.toWord_ofWord (w : Word) : (Psr.ofWord w).toWord = w := by
  apply BitVec.eq_of_getLsbD_eq
  intro i hi
  rw [Psr.getLsbD_toWord]
  simp only [Psr.ofWord, BitVec.getLsbD_append, BitVec.getLsbD_extractLsb', BitVec.getLsbD_ofBool]
  interval_cases i <;> simp

/-- A word's record is the record it was written from. -/
theorem Psr.ofWord_toWord (p : Psr) : Psr.ofWord p.toWord = p := by
  obtain ⟨n, z, c, v, r, i, f, t, m⟩ := p
  have hr : (Psr.toWord ⟨n, z, c, v, r, i, f, t, m⟩).extractLsb' 8 20 = r := by
    apply BitVec.eq_of_getLsbD_eq
    intro k hk
    rw [BitVec.getLsbD_extractLsb', Psr.getLsbD_toWord]
    simp only [BitVec.getLsbD_append]
    interval_cases k <;> simp
  have hm : (Psr.toWord ⟨n, z, c, v, r, i, f, t, m⟩).extractLsb' 0 5 = m := by
    apply BitVec.eq_of_getLsbD_eq
    intro k hk
    rw [BitVec.getLsbD_extractLsb', Psr.getLsbD_toWord]
    simp only [BitVec.getLsbD_append]
    interval_cases k <;> simp
  simp only [Psr.ofWord, hr, hm, Psr.getLsbD_toWord, BitVec.getLsbD_append]
  simp

/-! ### The bank -/

theorem RegBank.read_write_self (b : RegBank) (c : RegCell) (v : Word) : (b.write c v).read c = v := by
  cases c <;> rfl

theorem RegBank.read_write_of_ne (b : RegBank) {c d : RegCell} (v : Word) (h : d ≠ c) :
    (b.write c v).read d = b.read d := by
  cases c <;> cases d <;> first | rfl | exact absurd rfl h

theorem RegBank.read_write (b : RegBank) (c d : RegCell) (v : Word) :
    (b.write c v).read d = if d = c then v else b.read d := by
  split
  · rename_i h
    subst h
    exact RegBank.read_write_self b d v
  · rename_i h
    exact RegBank.read_write_of_ne b v h

@[simp] theorem RegBank.read_pc (b : RegBank) : b.read .pc = b.pc := rfl

@[simp] theorem RegBank.write_pc_pc (b : RegBank) (v : Word) : (b.write .pc v).pc = v := rfl

theorem RegBank.pc_write (b : RegBank) {c : RegCell} (v : Word) (h : c ≠ .pc) : (b.write c v).pc = b.pc :=
  RegBank.read_write_of_ne b v (Ne.symm h)

theorem RegBank.write_write (b : RegBank) (c : RegCell) (u v : Word) : (b.write c u).write c v = b.write c v := by
  cases c <;> rfl

/-- Two banks with the same words are the same bank. -/
theorem RegBank.ext_read {b b' : RegBank} (h : ∀ c, b.read c = b'.read c) : b = b' := by
  cases b
  cases b'
  have e := fun c => h c
  simp only [RegBank.mk.injEq]
  exact ⟨e .r0, e .r1, e .r2, e .r3, e .r4, e .r5, e .r6, e .r7, e .r8usr, e .r9usr, e .r10usr, e .r11usr, e .r12usr,
    e .r8fiq, e .r9fiq, e .r10fiq, e .r11fiq, e .r12fiq, e .r13usr, e .r14usr, e .r13fiq, e .r14fiq, e .r13irq,
    e .r14irq, e .r13svc, e .r14svc, e .r13abt, e .r14abt, e .r13und, e .r14und, e .pc⟩

/-! ### Which word an index names -/

/-- Under a valid mode every index of a register field names a word. -/
theorem resolve_of_valid {m : ModeBits} (h : validMode m = true) (i : Reg) : ∃ c, resolve m i.toNat = .ok c := by
  obtain ⟨b, hb⟩ : ∃ b, bankOf m = some b := Option.isSome_iff_exists.mp h
  obtain ⟨n, hn⟩ := i
  simp only [BitVec.toNat_ofFin]
  interval_cases n <;> simp [resolve, hb]

/-- Index 15 names the program counter, and no other index does. -/
theorem resolve_ne_pc {m : ModeBits} {i : Reg} {c : RegCell} (h : resolve m i.toNat = .ok c) (hi : i ≠ 15) :
    c ≠ .pc := by
  obtain ⟨n, hn⟩ := i
  simp only [BitVec.toNat_ofFin] at h
  interval_cases n
  all_goals first
    | exact absurd rfl hi
    | (simp only [resolve, Except.ok.injEq] at h
       subst h
       first
         | decide
         | (split <;> decide))
    | (simp only [resolve] at h
       split at h
       · rename_i b _
         simp only [Except.ok.injEq] at h
         subst h
         cases b <;> decide
       · cases h)

@[simp] theorem resolve_15 (m : ModeBits) : resolve m (15 : Reg).toNat = .ok .pc := rfl

/-- A low register names the same word in every mode. -/
theorem resolve_lowReg (m : ModeBits) (i : LowReg) : resolve m (lowReg i).toNat = .ok (lowCell i) := by
  have hlt : i.toNat < 8 := i.isLt
  have e : (lowReg i).toNat = i.toNat := by
    revert i
    decide
  rw [e]
  unfold lowCell
  generalize i.toNat = n at hlt
  interval_cases n <;> rfl

theorem lowCell_ne_pc (i : LowReg) : lowCell i ≠ .pc := by
  revert i
  decide

theorem lowReg_ne_15 (i : LowReg) : lowReg i ≠ 15 := by
  revert i
  decide

/-! ### Reads and writes by index -/

theorem cellOf_eq_ok {m : ModeBits} {i : Reg} {s : State} {c : RegCell} :
    cellOf m i s = .ok c ↔ resolve m i.toNat = .ok c := by
  unfold cellOf
  cases resolve m i.toNat <;> simp

theorem readRegAs_eq_ok {m : ModeBits} {i : Reg} {s : State} {v : Word} :
    readRegAs m i s = .ok v ↔ ∃ c, resolve m i.toNat = .ok c ∧ v = s.regs.read c := by
  unfold readRegAs cellOf
  cases h : resolve m i.toNat with
  | error f => simp [bind, Except.bind]
  | ok c => simp [bind, Except.bind, pure, Except.pure, eq_comm]

@[simp] theorem readReg_lowReg (i : LowReg) (s : State) : readReg (lowReg i) s = .ok (s.regs.read (lowCell i)) :=
  readRegAs_eq_ok.mpr ⟨_, resolve_lowReg _ i, rfl⟩

@[simp] theorem readReg_15 (s : State) : readReg 15 s = .ok s.regs.pc := rfl

/-- What a write by index can do: index 15 is `pc <-`; another index stores into the one word it names. -/
theorem writeRegAs_eq_ok {m : ModeBits} {i : Reg} {v : Word} {s s' : State} :
    writeRegAs m i v s = .ok s' ↔
      (i = 15 ∧ s' = writePc v s) ∨
      (i ≠ 15 ∧ ∃ c, resolve m i.toNat = .ok c ∧ s' = { s with regs := s.regs.write c v }) := by
  unfold writeRegAs
  by_cases hi : i = 15
  · simp [hi, eq_comm]
  · simp only [hi, if_false, false_and, false_or, not_false_eq_true, true_and, ne_eq]
    unfold cellOf
    cases h : resolve m i.toNat with
    | error f => simp [bind, Except.bind]
    | ok c => simp [bind, Except.bind, pure, Except.pure, eq_comm]

theorem writeReg_of_resolve {i : Reg} {c : RegCell} (v : Word) {s : State} (hi : i ≠ 15)
    (h : resolve s.cpsr.mode i.toNat = .ok c) : writeReg i v s = .ok { s with regs := s.regs.write c v } :=
  writeRegAs_eq_ok.mpr (.inr ⟨hi, c, h, rfl⟩)

@[simp] theorem writeReg_lowReg (i : LowReg) (v : Word) (s : State) :
    writeReg (lowReg i) v s = .ok { s with regs := s.regs.write (lowCell i) v } :=
  writeReg_of_resolve v (lowReg_ne_15 i) (resolve_lowReg _ i)

@[simp] theorem writeReg_15 (v : Word) (s : State) : writeReg 15 v s = .ok (writePc v s) := rfl

end Sys2Proof.Machine
end

