-- ==== Sys2Proof/Laws/Ops.lean ====
section
/-!
SUPPORT. One lemma per shared operation: what it answers, said once.
-/

namespace Sys2Proof.Machine

/-! ### Sequencing and answers -/

@[simp] theorem except_ok_bind {α β : Type} (a : α) (f : α → Except Fault β) : (Except.ok a >>= f) = f a := rfl

@[simp] theorem except_error_bind {α β : Type} (e : Fault) (f : α → Except Fault β) :
    (Except.error e >>= f) = Except.error e := rfl

@[simp] theorem except_pure {α : Type} (a : α) : (pure a : Except Fault α) = .ok a := rfl

/-- A sequence answers only if both halves do. -/
theorem bind_eq_ok {α β : Type} {x : Except Fault α} {f : α → Except Fault β} {b : β} :
    (x >>= f) = .ok b ↔ ∃ a, x = .ok a ∧ f a = .ok b := by
  cases x with
  | error e => simp
  | ok a => simp

/-! ### Faults -/

@[simp] theorem failIf_true (r : FaultReason) (s : State) : failIf true r s = .error (stop r s) := rfl

@[simp] theorem failIf_false (r : FaultReason) (s : State) : failIf false r s = .ok () := rfl

theorem failIf_eq_ok {b : Bool} {r : FaultReason} {s : State} {u : Unit} : failIf b r s = .ok u ↔ b = false := by
  cases b <;> simp

/-- A fault that is stopped with its reason recorded. -/
def Fault.IsRecorded (f : Fault) : Prop := ∃ r t, f = stop r t

/-- Every fault of `x` is recorded. -/
structure Records {α : Type} (x : Except Fault α) : Prop where
  recorded : ∀ f, x = .error f → f.IsRecorded

theorem Records.ok {α : Type} (a : α) : Records (.ok a : Except Fault α) := ⟨fun _ h => by cases h⟩

theorem Records.stop {α : Type} (r : FaultReason) (s : State) : Records (.error (stop r s) : Except Fault α) :=
  ⟨fun _ h => ⟨r, s, (Except.error.inj h).symm⟩⟩

theorem Records.bind {α β : Type} {x : Except Fault α} {f : α → Except Fault β} (hx : Records x)
    (hf : ∀ a, Records (f a)) : Records (x >>= f) := by
  cases x with
  | error e => exact ⟨fun g h => hx.recorded g (congrArg Except.error (Except.error.inj h))⟩
  | ok a => exact hf a

theorem failIf_records (b : Bool) (r : FaultReason) (s : State) : Records (failIf b r s) := by
  cases b
  · exact .ok _
  · exact .stop r s

/-! ### Answers -/

@[simp] theorem answer_ok (s : State) : answer (.ok s) = .next s := rfl

@[simp] theorem answer_error (f : Fault) : answer (.error f) = .fault f := rfl

theorem answer_eq_next {x : Except Fault State} {t : State} : answer x = .next t ↔ x = .ok t := by
  cases x <;> simp

theorem whenPassed_of_passed {c : Cond} {s : State} (h : Cond.passed c s.cpsr = true) (x : Except Fault State) :
    whenPassed c s x = answer x := by
  unfold whenPassed
  rw [if_pos h]

theorem whenPassed_of_failed {c : Cond} {s : State} (h : Cond.passed c s.cpsr = false) (x : Except Fault State) :
    whenPassed c s x = .next s := by
  unfold whenPassed
  rw [h]
  rfl

/-- An ARM meaning answers a next state in two ways: the condition fails and nothing changes, or the handler does. -/
theorem whenPassed_eq_next {c : Cond} {s t : State} {x : Except Fault State} :
    whenPassed c s x = .next t ↔
      (Cond.passed c s.cpsr = false ∧ t = s) ∨ (Cond.passed c s.cpsr = true ∧ x = .ok t) := by
  unfold whenPassed
  cases Cond.passed c s.cpsr
  · simp [eq_comm]
  · simp [answer_eq_next]

/-! ### Registers -/

theorem readReg_of_names {s : State} {i : Reg} {c : RegCell} (h : Names s i c) :
    readReg i s = .ok (s.regs.read c) := readRegAs_eq_ok.mpr ⟨c, h, rfl⟩

theorem readReg_eq_ok {s : State} {i : Reg} {v : Word} :
    readReg i s = .ok v ↔ ∃ c, Names s i c ∧ v = s.regs.read c := readRegAs_eq_ok

theorem writeReg_of_names {s : State} {i : Reg} {c : RegCell} (v : Word) (hi : i ≠ 15) (h : Names s i c) :
    writeReg i v s = .ok { s with regs := s.regs.write c v } := writeReg_of_resolve v hi h

/-- The cell of an index other than 15 is not the program counter. -/
theorem Names.ne_pc {s : State} {i : Reg} {c : RegCell} (h : Names s i c) (hi : i ≠ 15) : c ≠ .pc :=
  resolve_ne_pc h hi

/-- What an index names depends on the mode alone. -/
theorem Names.congr {s s' : State} {i : Reg} {c : RegCell} (h : Names s i c) (hm : s'.cpsr.mode = s.cpsr.mode) :
    Names s' i c := by
  unfold Names at *
  rw [hm]
  exact h

theorem Names.unique {s : State} {i : Reg} {c c' : RegCell} (h : Names s i c) (h' : Names s i c') : c = c' := by
  unfold Names at *
  rw [h] at h'
  exact Except.ok.inj h'

theorem names_15 {s : State} {c : RegCell} (h : Names s 15 c) : c = .pc := by
  unfold Names at h
  rw [resolve_15] at h
  exact (Except.ok.inj h).symm

theorem names_lowReg (s : State) (i : LowReg) : Names s (lowReg i) (lowCell i) := resolve_lowReg _ i

end Sys2Proof.Machine
end

