-- ==== Sys2Proof/Laws/State.lean ====
section
/-!
SUPPORT. The fields of a state after each named update, and the state after reset: small lemmas, so that no later proof
unfolds a record update.
-/

namespace Sys2Proof.Machine

/-! ### `pc <- v` -/
@[simp] theorem writePc_config (v : Word) (s : State) : (writePc v s).config = s.config := rfl
@[simp] theorem writePc_regs (v : Word) (s : State) : (writePc v s).regs = s.regs.write .pc (alignPc s.cpsr.t v) := rfl
@[simp] theorem writePc_cpsr (v : Word) (s : State) : (writePc v s).cpsr = s.cpsr := rfl
@[simp] theorem writePc_spsr (v : Word) (s : State) : (writePc v s).spsr = s.spsr := rfl
@[simp] theorem writePc_armFetched (v : Word) (s : State) : (writePc v s).armFetched = s.armFetched := rfl
@[simp] theorem writePc_armDecoding (v : Word) (s : State) : (writePc v s).armDecoding = s.armDecoding := rfl
@[simp] theorem writePc_armExecuting (v : Word) (s : State) : (writePc v s).armExecuting = s.armExecuting := rfl
@[simp] theorem writePc_thFetched (v : Word) (s : State) : (writePc v s).thFetched = s.thFetched := rfl
@[simp] theorem writePc_thDecoding (v : Word) (s : State) : (writePc v s).thDecoding = s.thDecoding := rfl
@[simp] theorem writePc_thExecuting (v : Word) (s : State) : (writePc v s).thExecuting = s.thExecuting := rfl
@[simp] theorem writePc_flushFlag (v : Word) (s : State) : (writePc v s).flushFlag = s.flushFlag := rfl
@[simp] theorem writePc_primed (v : Word) (s : State) : (writePc v s).primed = s.primed := rfl
@[simp] theorem writePc_mem (v : Word) (s : State) : (writePc v s).mem = s.mem := rfl
@[simp] theorem writePc_romSize (v : Word) (s : State) : (writePc v s).romSize = s.romSize := rfl
@[simp] theorem writePc_bootLoaded (v : Word) (s : State) : (writePc v s).bootLoaded = s.bootLoaded := rfl
@[simp] theorem writePc_biosLocked (v : Word) (s : State) : (writePc v s).biosLocked = s.biosLocked := rfl
@[simp] theorem writePc_openBusLatch (v : Word) (s : State) : (writePc v s).openBusLatch = s.openBusLatch := rfl
@[simp] theorem writePc_irqLine (v : Word) (s : State) : (writePc v s).irqLine = s.irqLine := rfl
@[simp] theorem writePc_fiqLine (v : Word) (s : State) : (writePc v s).fiqLine = s.fiqLine := rfl
@[simp] theorem writePc_faulted (v : Word) (s : State) : (writePc v s).faulted = s.faulted := rfl
@[simp] theorem writePc_flushRequested (v : Word) (s : State) : (writePc v s).flushRequested = true := rfl
@[simp] theorem writePc_draws (v : Word) (s : State) : (writePc v s).draws = s.draws := rfl

/-! ### The pipeline's program-counter increment -/
@[simp] theorem bumpPc_config (s : State) : (bumpPc s).config = s.config := rfl
@[simp] theorem bumpPc_regs (s : State) : (bumpPc s).regs = s.regs.write .pc (s.regs.pc + width s.cpsr) := rfl
@[simp] theorem bumpPc_cpsr (s : State) : (bumpPc s).cpsr = s.cpsr := rfl
@[simp] theorem bumpPc_spsr (s : State) : (bumpPc s).spsr = s.spsr := rfl
@[simp] theorem bumpPc_armFetched (s : State) : (bumpPc s).armFetched = s.armFetched := rfl
@[simp] theorem bumpPc_armDecoding (s : State) : (bumpPc s).armDecoding = s.armDecoding := rfl
@[simp] theorem bumpPc_armExecuting (s : State) : (bumpPc s).armExecuting = s.armExecuting := rfl
@[simp] theorem bumpPc_thFetched (s : State) : (bumpPc s).thFetched = s.thFetched := rfl
@[simp] theorem bumpPc_thDecoding (s : State) : (bumpPc s).thDecoding = s.thDecoding := rfl
@[simp] theorem bumpPc_thExecuting (s : State) : (bumpPc s).thExecuting = s.thExecuting := rfl
@[simp] theorem bumpPc_flushFlag (s : State) : (bumpPc s).flushFlag = s.flushFlag := rfl
@[simp] theorem bumpPc_primed (s : State) : (bumpPc s).primed = s.primed := rfl
@[simp] theorem bumpPc_mem (s : State) : (bumpPc s).mem = s.mem := rfl
@[simp] theorem bumpPc_romSize (s : State) : (bumpPc s).romSize = s.romSize := rfl
@[simp] theorem bumpPc_bootLoaded (s : State) : (bumpPc s).bootLoaded = s.bootLoaded := rfl
@[simp] theorem bumpPc_biosLocked (s : State) : (bumpPc s).biosLocked = s.biosLocked := rfl
@[simp] theorem bumpPc_openBusLatch (s : State) : (bumpPc s).openBusLatch = s.openBusLatch := rfl
@[simp] theorem bumpPc_irqLine (s : State) : (bumpPc s).irqLine = s.irqLine := rfl
@[simp] theorem bumpPc_fiqLine (s : State) : (bumpPc s).fiqLine = s.fiqLine := rfl
@[simp] theorem bumpPc_faulted (s : State) : (bumpPc s).faulted = s.faulted := rfl
@[simp] theorem bumpPc_flushRequested (s : State) : (bumpPc s).flushRequested = s.flushRequested := rfl
@[simp] theorem bumpPc_draws (s : State) : (bumpPc s).draws = s.draws := rfl

/-! ### The free value's draw -/
@[simp] theorem drawn_config (s : State) : (drawn s).config = s.config := rfl
@[simp] theorem drawn_regs (s : State) : (drawn s).regs = s.regs := rfl
@[simp] theorem drawn_cpsr (s : State) : (drawn s).cpsr = s.cpsr := rfl
@[simp] theorem drawn_spsr (s : State) : (drawn s).spsr = s.spsr := rfl
@[simp] theorem drawn_armFetched (s : State) : (drawn s).armFetched = s.armFetched := rfl
@[simp] theorem drawn_armDecoding (s : State) : (drawn s).armDecoding = s.armDecoding := rfl
@[simp] theorem drawn_armExecuting (s : State) : (drawn s).armExecuting = s.armExecuting := rfl
@[simp] theorem drawn_thFetched (s : State) : (drawn s).thFetched = s.thFetched := rfl
@[simp] theorem drawn_thDecoding (s : State) : (drawn s).thDecoding = s.thDecoding := rfl
@[simp] theorem drawn_thExecuting (s : State) : (drawn s).thExecuting = s.thExecuting := rfl
@[simp] theorem drawn_flushFlag (s : State) : (drawn s).flushFlag = s.flushFlag := rfl
@[simp] theorem drawn_primed (s : State) : (drawn s).primed = s.primed := rfl
@[simp] theorem drawn_mem (s : State) : (drawn s).mem = s.mem := rfl
@[simp] theorem drawn_romSize (s : State) : (drawn s).romSize = s.romSize := rfl
@[simp] theorem drawn_bootLoaded (s : State) : (drawn s).bootLoaded = s.bootLoaded := rfl
@[simp] theorem drawn_biosLocked (s : State) : (drawn s).biosLocked = s.biosLocked := rfl
@[simp] theorem drawn_openBusLatch (s : State) : (drawn s).openBusLatch = s.openBusLatch := rfl
@[simp] theorem drawn_irqLine (s : State) : (drawn s).irqLine = s.irqLine := rfl
@[simp] theorem drawn_fiqLine (s : State) : (drawn s).fiqLine = s.fiqLine := rfl
@[simp] theorem drawn_faulted (s : State) : (drawn s).faulted = s.faulted := rfl
@[simp] theorem drawn_flushRequested (s : State) : (drawn s).flushRequested = s.flushRequested := rfl
@[simp] theorem drawn_draws (s : State) : (drawn s).draws = s.draws + 1 := rfl

/-! ### A saved status word -/
@[simp] theorem setSpsr_config (p : Psr) (s : State) : (setSpsr p s).config = s.config := by
  unfold setSpsr
  split <;> rfl
@[simp] theorem setSpsr_regs (p : Psr) (s : State) : (setSpsr p s).regs = s.regs := by
  unfold setSpsr
  split <;> rfl
@[simp] theorem setSpsr_cpsr (p : Psr) (s : State) : (setSpsr p s).cpsr = s.cpsr := by
  unfold setSpsr
  split <;> rfl
@[simp] theorem setSpsr_armFetched (p : Psr) (s : State) : (setSpsr p s).armFetched = s.armFetched := by
  unfold setSpsr
  split <;> rfl
@[simp] theorem setSpsr_armDecoding (p : Psr) (s : State) : (setSpsr p s).armDecoding = s.armDecoding := by
  unfold setSpsr
  split <;> rfl
@[simp] theorem setSpsr_armExecuting (p : Psr) (s : State) : (setSpsr p s).armExecuting = s.armExecuting := by
  unfold setSpsr
  split <;> rfl
@[simp] theorem setSpsr_thFetched (p : Psr) (s : State) : (setSpsr p s).thFetched = s.thFetched := by
  unfold setSpsr
  split <;> rfl
@[simp] theorem setSpsr_thDecoding (p : Psr) (s : State) : (setSpsr p s).thDecoding = s.thDecoding := by
  unfold setSpsr
  split <;> rfl
@[simp] theorem setSpsr_thExecuting (p : Psr) (s : State) : (setSpsr p s).thExecuting = s.thExecuting := by
  unfold setSpsr
  split <;> rfl
@[simp] theorem setSpsr_flushFlag (p : Psr) (s : State) : (setSpsr p s).flushFlag = s.flushFlag := by
  unfold setSpsr
  split <;> rfl
@[simp] theorem setSpsr_primed (p : Psr) (s : State) : (setSpsr p s).primed = s.primed := by
  unfold setSpsr
  split <;> rfl
@[simp] theorem setSpsr_mem (p : Psr) (s : State) : (setSpsr p s).mem = s.mem := by
  unfold setSpsr
  split <;> rfl
@[simp] theorem setSpsr_romSize (p : Psr) (s : State) : (setSpsr p s).romSize = s.romSize := by
  unfold setSpsr
  split <;> rfl
@[simp] theorem setSpsr_bootLoaded (p : Psr) (s : State) : (setSpsr p s).bootLoaded = s.bootLoaded := by
  unfold setSpsr
  split <;> rfl
@[simp] theorem setSpsr_biosLocked (p : Psr) (s : State) : (setSpsr p s).biosLocked = s.biosLocked := by
  unfold setSpsr
  split <;> rfl
@[simp] theorem setSpsr_openBusLatch (p : Psr) (s : State) : (setSpsr p s).openBusLatch = s.openBusLatch := by
  unfold setSpsr
  split <;> rfl
@[simp] theorem setSpsr_irqLine (p : Psr) (s : State) : (setSpsr p s).irqLine = s.irqLine := by
  unfold setSpsr
  split <;> rfl
@[simp] theorem setSpsr_fiqLine (p : Psr) (s : State) : (setSpsr p s).fiqLine = s.fiqLine := by
  unfold setSpsr
  split <;> rfl
@[simp] theorem setSpsr_faulted (p : Psr) (s : State) : (setSpsr p s).faulted = s.faulted := by
  unfold setSpsr
  split <;> rfl
@[simp] theorem setSpsr_flushRequested (p : Psr) (s : State) : (setSpsr p s).flushRequested = s.flushRequested := by
  unfold setSpsr
  split <;> rfl
@[simp] theorem setSpsr_draws (p : Psr) (s : State) : (setSpsr p s).draws = s.draws := by
  unfold setSpsr
  split <;> rfl

/-- A saved status word reads back under the mode it was written in. -/
theorem getSpsr_setSpsr (p : Psr) (s : State) : getSpsr (setSpsr p s) = p := by
  unfold getSpsr
  rw [setSpsr_cpsr]
  unfold setSpsr
  split <;> simp_all

/-! ### The host's writes between steps -/
@[simp] theorem setLines_config (irq fiq : Bool) (s : State) : (setLines irq fiq s).config = s.config := rfl
@[simp] theorem setLines_regs (irq fiq : Bool) (s : State) : (setLines irq fiq s).regs = s.regs := rfl
@[simp] theorem setLines_cpsr (irq fiq : Bool) (s : State) : (setLines irq fiq s).cpsr = s.cpsr := rfl
@[simp] theorem setLines_spsr (irq fiq : Bool) (s : State) : (setLines irq fiq s).spsr = s.spsr := rfl
@[simp] theorem setLines_armFetched (irq fiq : Bool) (s : State) : (setLines irq fiq s).armFetched = s.armFetched := rfl
@[simp] theorem setLines_armDecoding (irq fiq : Bool) (s : State) : (setLines irq fiq s).armDecoding = s.armDecoding := rfl
@[simp] theorem setLines_armExecuting (irq fiq : Bool) (s : State) : (setLines irq fiq s).armExecuting = s.armExecuting := rfl
@[simp] theorem setLines_thFetched (irq fiq : Bool) (s : State) : (setLines irq fiq s).thFetched = s.thFetched := rfl
@[simp] theorem setLines_thDecoding (irq fiq : Bool) (s : State) : (setLines irq fiq s).thDecoding = s.thDecoding := rfl
@[simp] theorem setLines_thExecuting (irq fiq : Bool) (s : State) : (setLines irq fiq s).thExecuting = s.thExecuting := rfl
@[simp] theorem setLines_flushFlag (irq fiq : Bool) (s : State) : (setLines irq fiq s).flushFlag = s.flushFlag := rfl
@[simp] theorem setLines_primed (irq fiq : Bool) (s : State) : (setLines irq fiq s).primed = s.primed := rfl
@[simp] theorem setLines_mem (irq fiq : Bool) (s : State) : (setLines irq fiq s).mem = s.mem := rfl
@[simp] theorem setLines_romSize (irq fiq : Bool) (s : State) : (setLines irq fiq s).romSize = s.romSize := rfl
@[simp] theorem setLines_bootLoaded (irq fiq : Bool) (s : State) : (setLines irq fiq s).bootLoaded = s.bootLoaded := rfl
@[simp] theorem setLines_biosLocked (irq fiq : Bool) (s : State) : (setLines irq fiq s).biosLocked = s.biosLocked := rfl
@[simp] theorem setLines_openBusLatch (irq fiq : Bool) (s : State) : (setLines irq fiq s).openBusLatch = s.openBusLatch := rfl
@[simp] theorem setLines_irqLine (irq fiq : Bool) (s : State) : (setLines irq fiq s).irqLine = irq := rfl
@[simp] theorem setLines_fiqLine (irq fiq : Bool) (s : State) : (setLines irq fiq s).fiqLine = fiq := rfl
@[simp] theorem setLines_faulted (irq fiq : Bool) (s : State) : (setLines irq fiq s).faulted = s.faulted := rfl
@[simp] theorem setLines_flushRequested (irq fiq : Bool) (s : State) : (setLines irq fiq s).flushRequested = s.flushRequested := rfl
@[simp] theorem setLines_draws (irq fiq : Bool) (s : State) : (setLines irq fiq s).draws = s.draws := rfl
@[simp] theorem setBiosLocked_config (b : Bool) (s : State) : (setBiosLocked b s).config = s.config := rfl
@[simp] theorem setBiosLocked_regs (b : Bool) (s : State) : (setBiosLocked b s).regs = s.regs := rfl
@[simp] theorem setBiosLocked_cpsr (b : Bool) (s : State) : (setBiosLocked b s).cpsr = s.cpsr := rfl
@[simp] theorem setBiosLocked_spsr (b : Bool) (s : State) : (setBiosLocked b s).spsr = s.spsr := rfl
@[simp] theorem setBiosLocked_armFetched (b : Bool) (s : State) : (setBiosLocked b s).armFetched = s.armFetched := rfl
@[simp] theorem setBiosLocked_armDecoding (b : Bool) (s : State) : (setBiosLocked b s).armDecoding = s.armDecoding := rfl
@[simp] theorem setBiosLocked_armExecuting (b : Bool) (s : State) : (setBiosLocked b s).armExecuting = s.armExecuting := rfl
@[simp] theorem setBiosLocked_thFetched (b : Bool) (s : State) : (setBiosLocked b s).thFetched = s.thFetched := rfl
@[simp] theorem setBiosLocked_thDecoding (b : Bool) (s : State) : (setBiosLocked b s).thDecoding = s.thDecoding := rfl
@[simp] theorem setBiosLocked_thExecuting (b : Bool) (s : State) : (setBiosLocked b s).thExecuting = s.thExecuting := rfl
@[simp] theorem setBiosLocked_flushFlag (b : Bool) (s : State) : (setBiosLocked b s).flushFlag = s.flushFlag := rfl
@[simp] theorem setBiosLocked_primed (b : Bool) (s : State) : (setBiosLocked b s).primed = s.primed := rfl
@[simp] theorem setBiosLocked_mem (b : Bool) (s : State) : (setBiosLocked b s).mem = s.mem := rfl
@[simp] theorem setBiosLocked_romSize (b : Bool) (s : State) : (setBiosLocked b s).romSize = s.romSize := rfl
@[simp] theorem setBiosLocked_bootLoaded (b : Bool) (s : State) : (setBiosLocked b s).bootLoaded = s.bootLoaded := rfl
@[simp] theorem setBiosLocked_biosLocked (b : Bool) (s : State) : (setBiosLocked b s).biosLocked = b := rfl
@[simp] theorem setBiosLocked_openBusLatch (b : Bool) (s : State) : (setBiosLocked b s).openBusLatch = s.openBusLatch := rfl
@[simp] theorem setBiosLocked_irqLine (b : Bool) (s : State) : (setBiosLocked b s).irqLine = s.irqLine := rfl
@[simp] theorem setBiosLocked_fiqLine (b : Bool) (s : State) : (setBiosLocked b s).fiqLine = s.fiqLine := rfl
@[simp] theorem setBiosLocked_faulted (b : Bool) (s : State) : (setBiosLocked b s).faulted = s.faulted := rfl
@[simp] theorem setBiosLocked_flushRequested (b : Bool) (s : State) : (setBiosLocked b s).flushRequested = s.flushRequested := rfl
@[simp] theorem setBiosLocked_draws (b : Bool) (s : State) : (setBiosLocked b s).draws = s.draws := rfl

/-! ### Reset -/

/-- The memory after reset is in its canonical form. -/
theorem State.reset_mem_wf : State.reset.mem.wf = true := rfl

end Sys2Proof.Machine
end

