-- ==== Sys2Proof/Laws/Families.lean ====
section
/-!
SUPPORT. One lemma per operation the instruction families share: what it answers where it answers, and the meaning an
instruction named by its operands has.
-/

namespace Sys2Proof.Machine

/-! ### Operands -/

theorem operand2_of_is {o : Operand2} {s : State} {x : Shifted} (h : Operand2Is o s x) : operand2 o s = .ok x := by
  cases o with
  | imm rot imm8 =>
    rw [show x = expandImm imm8 rot s.cpsr.c from h]
    rfl
  | immShift amount k rm =>
    obtain ⟨cm, h1, rfl⟩ := h
    simp [operand2, readReg_of_names h1]
  | regShift rs k rm =>
    obtain ⟨cm, cs, h1, h2, rfl⟩ := h
    simp [operand2, readReg_of_names h1, readReg_of_names h2]

theorem sdtOffset_of_is {o : SdtOffset} {s : State} {x : Word} (h : SdtOffsetIs o s x) :
    sdtOffset o s = .ok x ∧ sdtOffsetIsR15 o = false := by
  cases o with
  | imm off =>
    rw [show x = off.zeroExtend 32 from h]
    exact ⟨rfl, rfl⟩
  | reg amount k rm =>
    obtain ⟨h15, cm, h1, rfl⟩ := h
    exact ⟨by simp [sdtOffset, readReg_of_names h1], beq_false_of_ne h15⟩

theorem halfOffset_of_is {o : HalfOffset} {s : State} {x : Word} (h : HalfOffsetIs o s x) :
    halfOffset o s = .ok x ∧ halfOffsetIsR15 o = false := by
  cases o with
  | imm hi lo =>
    refine ⟨?_, rfl⟩
    rw [show x = BitVec.ofNat 32 (16 * hi.toNat + lo.toNat) from h]
    have e : ∀ hi lo : BitVec 4, (hi ++ lo).zeroExtend 32 = BitVec.ofNat 32 (16 * hi.toNat + lo.toNat) := by decide
    exact congrArg Except.ok (e hi lo)
  | reg rm =>
    obtain ⟨h15, cm, h1, rfl⟩ := h
    exact ⟨readReg_of_names h1, beq_false_of_ne h15⟩

theorem storedPc_eq (s : State) :
    storedPc s = if s.config.pcReadExtra = .four then s.regs.pc + 4 else s.regs.pc := by
  unfold storedPc
  cases s.config.pcReadExtra <;> rfl

/-! ### Steps of a meaning -/

/-- A write-back changes the base register alone, or nothing. -/
theorem writeBack_of_names {wb : Bool} {rn : Reg} {c : RegCell} (v : Word) {s : State} (hn : Names s rn c)
    (h15 : wb = true → rn ≠ 15) :
    writeBack wb rn v s = .ok { s with regs := if wb then s.regs.write c v else s.regs } := by
  cases wb
  · rfl
  · exact writeReg_of_names v (h15 rfl) hn

theorem branchExchange_eq_ok {t : Word} {s u : State} :
    branchExchange t s = .ok u ↔
      (t.getLsbD 0 = true ∧ u = writePc t { s with cpsr := { s.cpsr with t := true } }) ∨
      (t.getLsbD 0 = false ∧ t.getLsbD 1 = false ∧ u = writePc t { s with cpsr := { s.cpsr with t := false } }) := by
  unfold branchExchange
  cases t.getLsbD 0 <;> cases t.getLsbD 1 <;> simp [eq_comm]

theorem restoreCpsr_eq_ok {s t : State} :
    restoreCpsr s = .ok t ↔ hasSpsr s.cpsr.mode = true ∧ t = { s with cpsr := getSpsr s } := by
  unfold restoreCpsr
  cases hasSpsr s.cpsr.mode <;> simp [eq_comm]

/-- Raising answers a next state under two policies: nothing happens, or the exception is entered. -/
theorem raise_eq_ok {e : Exception} {f : FaultReason} {s t : State} :
    raise e f s = .ok t ↔
      (s.config.excPolicy = .noop ∧ t = s) ∨ (s.config.excPolicy = .trap ∧ t = enterException e s) := by
  unfold raise
  cases s.config.excPolicy <;> simp [eq_comm]

/-- A load of the halfword category changes the latch alone. -/
theorem halfLoad_onlyLatch (k : HalfLoad) (a : Word) (s : State) : OnlyLatch s (halfLoad k a s).2 := by
  cases k with
  | unsignedHalf => exact read16_onlyLatch a s
  | signedByte => exact read8_onlyLatch a s
  | signedHalf =>
    unfold halfLoad
    dsimp only
    split
    · exact read8_onlyLatch a s
    · exact read16_onlyLatch a s

theorem memRead_onlyLatch (w : Width) (a : Word) (s : State) : OnlyLatch s (memRead w a s).2 := by
  cases w with
  | byte => exact read8_onlyLatch a s
  | half => exact read16_onlyLatch a s
  | word => exact read32_onlyLatch a s

/-- A store of a width changes only the bytes of its span. -/
theorem memWrite_onlyStores (w : Width) (a v : Word) (s : State) : OnlyStores (w.cells s a) s (memWrite w a v s) := by
  cases w with
  | byte => exact write8_onlyStores a v s
  | half => exact write16_onlyStores a v s
  | word => exact write32_onlyStores a v s

/-- Aligned loads change the latch alone. -/
theorem loadWords_onlyLatch (n : Nat) (a : Word) (s : State) : OnlyLatch s (loadWords n a s).2 := by
  induction n generalizing a s with
  | zero => exact OnlyLatch.refl s
  | succ n ih => exact (read32_onlyLatch _ s).trans (ih (a + 4) _)

/-! ### The meaning of an instruction named by its operands -/

/-- Every data-processing instruction runs the skeleton, over the fields its table row has. -/
theorem exec_dpInstr {op : DpOp} {c : Cond} {sf : Bool} {rn rd : Reg} {o : Operand2} {s : State}
    (h : Cond.passed c s.cpsr = true) :
    ∃ sf' rd' rn', exec (dpInstr op c sf rn rd o) s = answer (dataProcessing op sf' rn' rd' o s) ∧
      (dpComparison op = false → sf' = sf ∧ rd' = rd) ∧ (dpMove op = false → rn' = rn) ∧
      regShiftNamesR15 o rd' rn' = regShiftNamesR15 o rd rn := by
  cases op <;> cases o <;>
    exact ⟨_, _, _, whenPassed_of_passed h _, by simp [dpComparison], by simp [dpMove], by simp [regShiftNamesR15]⟩

theorem exec_sdtInstr {load byte : Bool} {c : Cond} {p u w : Bool} {rn rd : Reg} {off : SdtOffset} {s : State}
    (h : Cond.passed c s.cpsr = true) :
    exec (sdtInstr load byte c p u w rn rd off) s =
      answer (if load then singleLoad byte p u w rn rd off s else singleStore byte p u w rn rd off s) := by
  cases load <;> cases byte <;> cases p <;> cases w <;> exact whenPassed_of_passed h _

theorem exec_halfLoadInstr {k : HalfLoad} {c : Cond} {p u w : Bool} {rn rd : Reg} {off : HalfOffset} {s : State}
    (h : Cond.passed c s.cpsr = true) :
    exec (halfLoadInstr k c p u w rn rd off) s = answer (halfwordLoad k p u w rn rd off s) := by
  cases k <;> cases off <;> exact whenPassed_of_passed h _

theorem exec_halfStoreInstr {c : Cond} {p u w : Bool} {rn rd : Reg} {off : HalfOffset} {s : State}
    (h : Cond.passed c s.cpsr = true) :
    exec (halfStoreInstr c p u w rn rd off) s = answer (halfwordStore p u w rn rd off s) := by
  cases off <;> exact whenPassed_of_passed h _

theorem exec_blockLoadInstr {m : BlockMode} {c : Cond} {sb w : Bool} {rn : Reg} {list : BitVec 16} {s : State}
    (h : Cond.passed c s.cpsr = true) :
    exec (blockLoadInstr m c sb w rn list) s = answer (blockLoad m sb w rn list s) := by
  cases m <;> exact whenPassed_of_passed h _

theorem exec_blockStoreInstr {m : BlockMode} {c : Cond} {sb w : Bool} {rn : Reg} {list : BitVec 16} {s : State}
    (h : Cond.passed c s.cpsr = true) :
    exec (blockStoreInstr m c sb w rn list) s = answer (blockStore m sb w rn list s) := by
  cases m <;> exact whenPassed_of_passed h _

theorem exec_longInstr {signed acc : Bool} {c : Cond} {sf : Bool} {hi lo rs rm : Reg} {s : State}
    (h : Cond.passed c s.cpsr = true) :
    exec (longInstr signed acc c sf hi lo rs rm) s = answer (multiplyLong signed acc sf hi lo rs rm s) := by
  cases signed <;> cases acc <;> exact whenPassed_of_passed h _

end Sys2Proof.Machine
end

