-- ==== Sys2Proof/Laws/Pipeline.lean ====
section
/-!
SUPPORT. What the pipeline operations and the exception entry can do, said once: which fields they leave, and when a step
answers.
-/

namespace Sys2Proof.Machine

/-! ### Fetches and the end of a step -/

/-- `s'` is `s` but for the program counter, the latch, the slots and the two flush flags: what fetching can change. -/
def OnlyFetches (s s' : State) : Prop :=
  ∃ v l f0 f1 f2 f3 f4 f5 g r, s' =
    { s with
      regs := s.regs.write .pc v, openBusLatch := l
      armFetched := f0, armDecoding := f1, armExecuting := f2, thFetched := f3, thDecoding := f4, thExecuting := f5
      flushFlag := g, flushRequested := r }

theorem OnlyFetches.refl (s : State) : OnlyFetches s s :=
  ⟨s.regs.pc, s.openBusLatch, s.armFetched, s.armDecoding, s.armExecuting, s.thFetched, s.thDecoding, s.thExecuting,
    s.flushFlag, s.flushRequested, rfl⟩

theorem OnlyFetches.trans {s t u : State} (h : OnlyFetches s t) (h' : OnlyFetches t u) : OnlyFetches s u := by
  obtain ⟨v, l, f0, f1, f2, f3, f4, f5, g, r, rfl⟩ := h
  obtain ⟨v', l', g0, g1, g2, g3, g4, g5, g', r', rfl⟩ := h'
  exact ⟨v', l', g0, g1, g2, g3, g4, g5, g', r', rfl⟩

theorem OnlyLatch.onlyFetches {s t : State} (h : OnlyLatch s t) : OnlyFetches s t := by
  obtain ⟨l, rfl⟩ := h
  exact ⟨s.regs.pc, l, s.armFetched, s.armDecoding, s.armExecuting, s.thFetched, s.thDecoding, s.thExecuting,
    s.flushFlag, s.flushRequested, rfl⟩

theorem bumpPc_onlyFetches (s : State) : OnlyFetches s (bumpPc s) :=
  ⟨_, s.openBusLatch, s.armFetched, s.armDecoding, s.armExecuting, s.thFetched, s.thDecoding, s.thExecuting,
    s.flushFlag, s.flushRequested, rfl⟩

theorem fetchArm_onlyFetches (s : State) : OnlyFetches s (fetchArm s).2 :=
  (read32_onlyLatch _ s).onlyFetches.trans (bumpPc_onlyFetches _)

theorem fetchThumb_onlyFetches (s : State) : OnlyFetches s (fetchThumb s).2 :=
  (read16_onlyLatch _ s).onlyFetches.trans (bumpPc_onlyFetches _)

/-- Setting slots and flush flags is the last part of a fetch. -/
theorem OnlyFetches.slots {s t : State} (h : OnlyFetches s t) (f0 f1 f2 : Option Word) (f3 f4 f5 : Option Half)
    (g r : Bool) :
    OnlyFetches s
      { t with
        armFetched := f0, armDecoding := f1, armExecuting := f2, thFetched := f3, thDecoding := f4, thExecuting := f5
        flushFlag := g, flushRequested := r } := by
  obtain ⟨v, l, _, _, _, _, _, _, _, _, rfl⟩ := h
  exact ⟨v, l, f0, f1, f2, f3, f4, f5, g, r, rfl⟩

theorem advance_onlyFetches (s : State) : OnlyFetches s (advance s) := by
  unfold advance
  split
  · exact (fetchThumb_onlyFetches s).slots _ _ _ _ _ _ _ _
  · exact (fetchArm_onlyFetches s).slots _ _ _ _ _ _ _ _

theorem flush_onlyFetches (s : State) : OnlyFetches s (flush s) := by
  unfold flush
  split
  · exact ((fetchThumb_onlyFetches s).trans (fetchThumb_onlyFetches _)).slots _ _ _ _ _ _ _ _
  · exact ((fetchArm_onlyFetches s).trans (fetchArm_onlyFetches _)).slots _ _ _ _ _ _ _ _

/-- The end of a step only fetches. -/
theorem finishStep_onlyFetches (s : State) : OnlyFetches s (finishStep s) := by
  have h : OnlyFetches s { (if s.flushRequested then flush s else s) with flushRequested := false } := by
    split
    · exact (flush_onlyFetches s).slots _ _ _ _ _ _ _ _
    · exact (OnlyFetches.refl s).slots _ _ _ _ _ _ _ _
  have tail : ∀ u, OnlyFetches s u →
      OnlyFetches s (if u.flushFlag then { u with flushFlag := false } else advance u) := fun u hu => by
    split
    · exact hu.slots _ _ _ _ _ _ _ _
    · exact hu.trans (advance_onlyFetches u)
  exact tail _ h

/-- What fetching leaves: everything a program can name but the program counter. -/
theorem OnlyFetches.frame {s t : State} (h : OnlyFetches s t) :
    t.config = s.config ∧ t.cpsr = s.cpsr ∧ t.spsr = s.spsr ∧ t.mem = s.mem ∧ t.romSize = s.romSize ∧
    t.bootLoaded = s.bootLoaded ∧ t.biosLocked = s.biosLocked ∧ t.primed = s.primed ∧ t.irqLine = s.irqLine ∧
    t.fiqLine = s.fiqLine ∧ t.faulted = s.faulted ∧ t.draws = s.draws ∧ ∀ c, c ≠ .pc → t.regs.read c = s.regs.read c := by
  obtain ⟨v, l, f0, f1, f2, f3, f4, f5, g, r, rfl⟩ := h
  exact ⟨rfl, rfl, rfl, rfl, rfl, rfl, rfl, rfl, rfl, rfl, rfl, rfl, fun c hc => RegBank.read_write_of_ne _ _ hc⟩

/-- A step answers a next state only from a primed machine without a recorded fault, by an interrupt or by the executing instruction, and ends it
by fetching. -/
theorem step_eq_next {s t : State} (h : step s = .next t) :
    s.faulted = none ∧ s.primed = true ∧ ∃ u, t = finishStep u ∧
      ((∃ e, s.config.excPolicy = .trap ∧ pendingInterrupt s = some e ∧
          u = enterException e { s with flushRequested := false }) ∨
        ∃ i, executingInstr s = some i ∧ exec i { s with flushRequested := false } = .next u) := by
  unfold step stepWith at h
  split at h
  · cases h
  rename_i hf
  split at h
  · rename_i hp
    refine ⟨hf, hp, ?_⟩
    split at h
    · rename_i u hd
      refine ⟨u, (Host.Outcome.next.inj h).symm, ?_⟩
      have hi : pendingInterrupt { s with flushRequested := false } = pendingInterrupt s := rfl
      have he : executingInstr { s with flushRequested := false } = executingInstr s := rfl
      simp only [dispatch, hi, he] at hd
      cases hq : pendingInterrupt s <;> cases hc : s.config.excPolicy <;> cases hx : executingInstr s <;>
        simp only [hq, hc, hx] at hd
      all_goals first
        | exact .inr ⟨_, rfl, hd⟩
        | exact .inl ⟨_, rfl, rfl, (Host.Outcome.next.inj hd).symm⟩
        | cases hd
    · cases h
    · cases h
  · cases h

/-! ### Exception entry -/

@[simp] theorem enterException_cpsr (e : Exception) (s : State) :
    (enterException e s).cpsr =
      { s.cpsr with mode := e.mode, t := false, i := true, f := s.cpsr.f || e == .fiq } := by
  simp [enterException]

@[simp] theorem enterException_regs (e : Exception) (s : State) :
    (enterException e s).regs =
      (s.regs.write e.bank.r14 (e.link (instrAddress s) (width s.cpsr))).write .pc e.vector := by
  cases e <;> simp [enterException, alignPc, Exception.vector]

@[simp] theorem enterException_spsr (e : Exception) (s : State) :
    (enterException e s).spsr = s.spsr.saveIn e.bank s.cpsr := by
  cases e <;> rfl

end Sys2Proof.Machine
end

