-- ==== Sys2Proof/Laws/Faults.lean ====
section
/-!
SUPPORT. Every fault records its reason in the state it leaves (`40_pipeline.md` R353): said once per operation, then
of `exec` and of `step`.
-/

namespace Sys2Proof.Machine

/-! ### Registers and operands -/

theorem readRegAs_records (m : ModeBits) (i : Reg) (s : State) : Records (readRegAs m i s) := by
  unfold readRegAs cellOf
  cases resolve m i.toNat with
  | ok c => exact .ok _
  | error r => exact .stop r s

theorem readReg_records (i : Reg) (s : State) : Records (readReg i s) := readRegAs_records _ i s

theorem writeRegAs_records (m : ModeBits) (i : Reg) (v : Word) (s : State) : Records (writeRegAs m i v s) := by
  unfold writeRegAs cellOf
  split
  · exact .ok _
  · cases resolve m i.toNat with
    | ok c => exact .ok _
    | error r => exact .stop r s

theorem writeReg_records (i : Reg) (v : Word) (s : State) : Records (writeReg i v s) := writeRegAs_records _ i v s

theorem writeBack_records (wb : Bool) (i : Reg) (v : Word) (s : State) : Records (writeBack wb i v s) := by
  cases wb
  · exact .ok _
  · exact writeReg_records i v s

theorem operand2_records (o : Operand2) (s : State) : Records (operand2 o s) := by
  cases o with
  | imm rot imm8 => exact .ok _
  | immShift amount k rm => exact (readReg_records rm s).bind fun _ => .ok _
  | regShift rs k rm => exact (readReg_records rm s).bind fun _ => (readReg_records rs s).bind fun _ => .ok _

theorem sdtOffset_records (o : SdtOffset) (s : State) : Records (sdtOffset o s) := by
  cases o with
  | imm off => exact .ok _
  | reg amount k rm => exact (readReg_records rm s).bind fun _ => .ok _

theorem halfOffset_records (o : HalfOffset) (s : State) : Records (halfOffset o s) := by
  cases o with
  | imm hi lo => exact .ok _
  | reg rm => exact readReg_records rm s

/-! ### Exceptions and status words -/

theorem restoreCpsr_records (s : State) : Records (restoreCpsr s) := by
  unfold restoreCpsr
  split
  · exact .ok _
  · exact .stop _ s

theorem raise_records (e : Exception) (r : FaultReason) (s : State) : Records (raise e r s) := by
  unfold raise
  split
  · exact .ok _
  · exact .ok _
  · exact .stop r s

theorem branchExchange_records (t : Word) (s : State) : Records (branchExchange t s) := by
  unfold branchExchange
  split
  · exact .ok _
  · exact (failIf_records _ _ s).bind fun _ => .ok _

theorem moveToPsr_records (r : Bool) (mask : BitVec 4) (v : Word) (s : State) : Records (moveToPsr r mask v s) := by
  cases r
  · exact (failIf_records _ _ s).bind fun _ => .ok _
  · exact .ok _

theorem moveFromPsr_records (r : Bool) (rd : Reg) (s : State) : Records (moveFromPsr r rd s) :=
  (failIf_records _ _ s).bind fun _ => writeReg_records rd _ s

/-! ### The handlers -/

theorem dpFinish_records (op : DpOp) (sf : Bool) (rd : Reg) (x : Sum) (s : State) :
    Records (dpFinish op sf rd x s) := by
  unfold dpFinish
  split
  · exact .ok _
  · split
    · split
      · exact (restoreCpsr_records s).bind fun _ => .ok _
      · exact .ok _
    · exact (writeReg_records rd _ s).bind fun _ => .ok _

theorem dataProcessing_records (op : DpOp) (sf : Bool) (rn rd : Reg) (o : Operand2) (s : State) :
    Records (dataProcessing op sf rn rd o s) := by
  refine (failIf_records _ _ s).bind fun _ => (operand2_records o s).bind fun sh => ?_
  split
  · exact dpFinish_records op sf rd _ s
  · exact (readReg_records rn s).bind fun a => dpFinish_records op sf rd _ s

theorem sdtCheck_records (byte p w : Bool) (rn rd : Reg) (off : SdtOffset) (s : State) :
    Records (sdtCheck byte p w rn rd off s) :=
  (failIf_records _ _ s).bind fun _ => (failIf_records _ _ s).bind fun _ => (failIf_records _ _ s).bind fun _ =>
    failIf_records _ _ s

theorem singleLoad_records (byte p u w : Bool) (rn rd : Reg) (off : SdtOffset) (s : State) :
    Records (singleLoad byte p u w rn rd off s) := by
  refine (sdtCheck_records byte p w rn rd off s).bind fun _ => (sdtOffset_records off s).bind fun x =>
    (readReg_records rn s).bind fun base => (writeBack_records _ rn _ _).bind fun t => ?_
  split
  · exact (failIf_records _ _ t).bind fun _ => .ok _
  · exact writeReg_records rd _ t

theorem singleStore_records (byte p u w : Bool) (rn rd : Reg) (off : SdtOffset) (s : State) :
    Records (singleStore byte p u w rn rd off s) := by
  refine (sdtCheck_records byte p w rn rd off s).bind fun _ => (sdtOffset_records off s).bind fun x =>
    (readReg_records rn s).bind fun base => ?_
  dsimp only
  split
  · exact writeBack_records _ rn _ _
  · exact (readReg_records rd s).bind fun v => writeBack_records _ rn _ _

theorem halfCheck_records (p w : Bool) (rn rd : Reg) (off : HalfOffset) (s : State) :
    Records (halfCheck p w rn rd off s) :=
  (failIf_records _ _ s).bind fun _ => (failIf_records _ _ s).bind fun _ => (failIf_records _ _ s).bind fun _ =>
    (failIf_records _ _ s).bind fun _ => failIf_records _ _ s

theorem halfwordLoad_records (k : HalfLoad) (p u w : Bool) (rn rd : Reg) (off : HalfOffset) (s : State) :
    Records (halfwordLoad k p u w rn rd off s) :=
  (halfCheck_records p w rn rd off s).bind fun _ => (halfOffset_records off s).bind fun _ =>
    (readReg_records rn s).bind fun _ => (writeBack_records _ rn _ _).bind fun t => writeReg_records rd _ t

theorem halfwordStore_records (p u w : Bool) (rn rd : Reg) (off : HalfOffset) (s : State) :
    Records (halfwordStore p u w rn rd off s) :=
  (halfCheck_records p w rn rd off s).bind fun _ => (halfOffset_records off s).bind fun _ =>
    (readReg_records rn s).bind fun _ => (readReg_records rd s).bind fun _ => writeBack_records _ rn _ _

theorem swap_records (byte : Bool) (rn rd rm : Reg) (s : State) : Records (swap byte rn rd rm s) :=
  (failIf_records _ _ s).bind fun _ => (failIf_records _ _ s).bind fun _ => (readReg_records rn s).bind fun _ =>
    (readReg_records rm s).bind fun _ => writeReg_records rd _ _

theorem branch_records (link : Bool) (imm24 : BitVec 24) (s : State) : Records (branch link imm24 s) := by
  unfold branch
  dsimp only
  split
  · exact (writeReg_records 14 _ s).bind fun _ => .ok _
  · exact .ok _

theorem multiply_records (acc : Option Reg) (sf : Bool) (rd rs rm : Reg) (s : State) :
    Records (multiply acc sf rd rs rm s) := by
  refine (failIf_records _ _ s).bind fun _ => (failIf_records _ _ s).bind fun _ => (readReg_records rm s).bind fun _ =>
    (readReg_records rs s).bind fun _ => ?_
  cases acc with
  | none => exact (writeReg_records rd _ s).bind fun _ => .ok _
  | some rn => exact (readReg_records rn s).bind fun _ => (writeReg_records rd _ s).bind fun _ => .ok _

theorem multiplyLong_records (signed acc sf : Bool) (hi lo rs rm : Reg) (s : State) :
    Records (multiplyLong signed acc sf hi lo rs rm s) := by
  refine (failIf_records _ _ s).bind fun _ => (failIf_records _ _ s).bind fun _ => (readReg_records rm s).bind fun _ =>
    (readReg_records rs s).bind fun _ => ?_
  cases acc
  · exact (writeReg_records lo _ s).bind fun t => (writeReg_records hi _ t).bind fun _ => .ok _
  · exact (readReg_records hi s).bind fun _ => (readReg_records lo s).bind fun _ =>
      (writeReg_records lo _ s).bind fun t => (writeReg_records hi _ t).bind fun _ => .ok _

theorem loadRegs_records (userBank : Bool) (l : List Reg) (a : Word) (s : State) :
    Records (loadRegs userBank l a s) := by
  induction l generalizing a s with
  | nil => exact .ok _
  | cons i rest ih => exact (writeRegAs_records _ i _ _).bind fun t => ih _ t

theorem storeRegs_records (userBank : Bool) (l : List Reg) (a : Word) (s : State) :
    Records (storeRegs userBank l a s) := by
  induction l generalizing a s with
  | nil => exact .ok _
  | cons i rest ih =>
    refine Records.bind ?_ fun v => ih _ _
    unfold storedReg
    split
    · exact .ok _
    · exact readRegAs_records _ i s

theorem blockCheck_records (userBank w : Bool) (rn : Reg) (list : BitVec 16) (s : State) :
    Records (blockCheck userBank w rn list s) :=
  (failIf_records _ _ s).bind fun _ => (failIf_records _ _ s).bind fun _ => (failIf_records _ _ s).bind fun _ =>
    failIf_records _ _ s

theorem blockLoad_records (m : BlockMode) (sb w : Bool) (rn : Reg) (list : BitVec 16) (s : State) :
    Records (blockLoad m sb w rn list s) := by
  refine (blockCheck_records _ w rn list s).bind fun _ => (failIf_records _ _ s).bind fun _ =>
    (readReg_records rn s).bind fun base => (loadRegs_records _ _ _ s).bind fun r => ?_
  split
  · refine (writeBack_records w rn _ _).bind fun t => ?_
    dsimp only
    split
    · exact (restoreCpsr_records t).bind fun _ => .ok _
    · exact .ok _
  · exact writeBack_records w rn _ _

theorem blockStore_records (m : BlockMode) (sb w : Bool) (rn : Reg) (list : BitVec 16) (s : State) :
    Records (blockStore m sb w rn list s) :=
  (blockCheck_records _ w rn list s).bind fun _ => (failIf_records _ _ s).bind fun _ =>
    (readReg_records rn s).bind fun _ => (storeRegs_records _ _ _ s).bind fun t => writeBack_records w rn _ t

/-! ### The Thumb handlers -/

theorem lowResult_records (f : FlagWrite) (rd : LowReg) (x : Sum) (s : State) : Records (lowResult f rd x s) :=
  (writeReg_records _ _ s).bind fun _ => .ok _

theorem lowUnary_records (f : FlagWrite) (rs rd : LowReg) (op : Word → Sum) (s : State) :
    Records (lowUnary f rs rd op s) := (readReg_records _ s).bind fun _ => lowResult_records f rd _ s

theorem lowBinary_records (f : FlagWrite) (ra rb rd : LowReg) (op : Word → Word → Sum) (s : State) :
    Records (lowBinary f ra rb rd op s) :=
  (readReg_records _ s).bind fun _ => (readReg_records _ s).bind fun _ => lowResult_records f rd _ s

theorem lowCompare_records (f : FlagWrite) (ra rb : LowReg) (op : Word → Word → Sum) (s : State) :
    Records (lowCompare f ra rb op s) := (readReg_records _ s).bind fun _ => (readReg_records _ s).bind fun _ => .ok _

theorem lowMultiply_records (rs rd : LowReg) (s : State) : Records (lowMultiply rs rd s) :=
  (failIf_records _ _ s).bind fun _ => (readReg_records _ s).bind fun _ => (readReg_records _ s).bind fun _ =>
    (writeReg_records _ _ s).bind fun _ => .ok _

theorem hiCheck_records (h1 h2 : Bool) (s : State) : Records (hiCheck h1 h2 s) := failIf_records _ _ s

theorem baseOffset_records (rb : Reg) (x : Word) (s : State) : Records (baseOffset rb x s) :=
  (readReg_records rb s).bind fun _ => .ok _

theorem baseIndex_records (rb ro : LowReg) (s : State) : Records (baseIndex rb ro s) :=
  (readReg_records _ s).bind fun _ => (readReg_records _ s).bind fun _ => .ok _

theorem lowLoad_records (w : Width) (rd : LowReg) (a : Word) (s : State) : Records (lowLoad w rd a s) :=
  writeReg_records _ _ _

theorem lowLoadHalf_records (k : HalfLoad) (rd : LowReg) (a : Word) (s : State) : Records (lowLoadHalf k rd a s) :=
  writeReg_records _ _ _

theorem lowStore_records (w : Width) (rd : LowReg) (a : Word) (s : State) : Records (lowStore w rd a s) :=
  (readReg_records _ s).bind fun _ => .ok _

theorem push_records (r : Bool) (rlist : BitVec 8) (s : State) : Records (push r rlist s) :=
  (failIf_records _ _ s).bind fun _ => (readReg_records 13 s).bind fun _ => (storeRegs_records _ _ _ s).bind fun t =>
    writeReg_records 13 _ t

theorem pop_records (r : Bool) (rlist : BitVec 8) (s : State) : Records (pop r rlist s) := by
  refine (failIf_records _ _ s).bind fun _ => (readReg_records 13 s).bind fun _ =>
    (loadRegs_records _ _ _ s).bind fun l => ?_
  split
  · exact (writeReg_records 13 _ _).bind fun _ => .ok _
  · exact writeReg_records 13 _ _

theorem lowStoreMultiple_records (rb : LowReg) (rlist : BitVec 8) (s : State) : Records (lowStoreMultiple rb rlist s) :=
  (failIf_records _ _ s).bind fun _ => (failIf_records _ _ s).bind fun _ => (readReg_records _ s).bind fun _ =>
    (storeRegs_records _ _ _ s).bind fun t => writeReg_records _ _ t

theorem lowLoadMultiple_records (rb : LowReg) (rlist : BitVec 8) (s : State) : Records (lowLoadMultiple rb rlist s) :=
  (failIf_records _ _ s).bind fun _ => (readReg_records _ s).bind fun _ => (loadRegs_records _ _ _ s).bind fun _ =>
    writeBack_records _ _ _ _

/-! ### Instructions -/

theorem answer_fault_recorded {x : Except Fault State} {f : Fault} (hx : Records x) (h : answer x = .fault f) :
    f.IsRecorded := by
  cases x with
  | ok s => cases h
  | error e => exact hx.recorded f (congrArg Except.error (Host.Outcome.fault.inj h))

theorem whenPassed_fault_recorded {c : Cond} {s : State} {x : Except Fault State} {f : Fault} (hx : Records x)
    (h : whenPassed c s x = .fault f) : f.IsRecorded := by
  unfold whenPassed at h
  split at h
  · exact answer_fault_recorded hx h
  · cases h

/-- Every fault of an instruction is recorded in the state it leaves. -/
theorem exec_fault_recorded {i : Instr} {s : State} {f : Fault} (hf : exec i s = .fault f) : f.IsRecorded := by
  cases i with
  | bx =>
    exact whenPassed_fault_recorded ((readReg_records ..).bind fun _ => branchExchange_records ..) hf
  | mul | mla =>
    exact whenPassed_fault_recorded (multiply_records ..) hf
  | umull | umlal | smull | smlal =>
    exact whenPassed_fault_recorded (multiplyLong_records ..) hf
  | swp | swpb =>
    exact whenPassed_fault_recorded (swap_records ..) hf
  | strhImm | strhReg =>
    exact whenPassed_fault_recorded (halfwordStore_records ..) hf
  | ldrhImm | ldrhReg | ldrsbImm | ldrsbReg | ldrshImm | ldrshReg =>
    exact whenPassed_fault_recorded (halfwordLoad_records ..) hf
  | halfwordSignedStore =>
    exact whenPassed_fault_recorded (Records.stop ..) hf
  | mrs =>
    exact whenPassed_fault_recorded (moveFromPsr_records ..) hf
  | msrReg =>
    exact whenPassed_fault_recorded ((failIf_records ..).bind fun _ => (readReg_records ..).bind fun _ =>
      moveToPsr_records ..) hf
  | msrImm =>
    exact whenPassed_fault_recorded (moveToPsr_records ..) hf
  | andImm | andRegImmShift | andRegRegShift | eorImm | eorRegImmShift | eorRegRegShift | subImm | subRegImmShift |
    subRegRegShift | rsbImm | rsbRegImmShift | rsbRegRegShift | addImm | addRegImmShift | addRegRegShift | adcImm |
    adcRegImmShift | adcRegRegShift | sbcImm | sbcRegImmShift | sbcRegRegShift | rscImm | rscRegImmShift |
    rscRegRegShift | tstImm | tstRegImmShift | tstRegRegShift | teqImm | teqRegImmShift | teqRegRegShift | cmpImm |
    cmpRegImmShift | cmpRegRegShift | cmnImm | cmnRegImmShift | cmnRegRegShift | orrImm | orrRegImmShift |
    orrRegRegShift | movImm | movRegImmShift | movRegRegShift | bicImm | bicRegImmShift | bicRegRegShift | mvnImm |
    mvnRegImmShift | mvnRegRegShift =>
    exact whenPassed_fault_recorded (dataProcessing_records ..) hf
  | undefinedRow8 | ldcStcUndefined | cdp | mcr | mrc | swi =>
    exact whenPassed_fault_recorded (raise_records ..) hf
  | strt | strbt | str | strb =>
    exact whenPassed_fault_recorded (singleStore_records ..) hf
  | ldrt | ldrbt | ldr | ldrb =>
    exact whenPassed_fault_recorded (singleLoad_records ..) hf
  | stmda | stmia | stmdb | stmib =>
    exact whenPassed_fault_recorded (blockStore_records ..) hf
  | ldmda | ldmia | ldmdb | ldmib =>
    exact whenPassed_fault_recorded (blockLoad_records ..) hf
  | b | bl =>
    exact whenPassed_fault_recorded (branch_records ..) hf
  | tAddReg | tSubReg | tAnd | tEor | tLslReg | tLsrReg | tAsrReg | tAdc | tSbc | tRor | tOrr | tBic =>
    exact answer_fault_recorded (lowBinary_records ..) hf
  | tAddImm3 | tSubImm3 | tLslImm | tLsrImm | tAsrImm | tAddImm8 | tSubImm8 | tNeg | tMvn =>
    exact answer_fault_recorded (lowUnary_records ..) hf
  | tMovImm =>
    exact answer_fault_recorded (lowResult_records ..) hf
  | tCmpImm =>
    exact answer_fault_recorded ((readReg_records ..).bind fun _ => Records.ok _) hf
  | tTst | tCmpReg | tCmn =>
    exact answer_fault_recorded (lowCompare_records ..) hf
  | tMul =>
    exact answer_fault_recorded (lowMultiply_records ..) hf
  | tAddHi =>
    exact answer_fault_recorded ((hiCheck_records ..).bind fun _ => (readReg_records ..).bind fun _ =>
      (readReg_records ..).bind fun _ => writeReg_records ..) hf
  | tCmpHi =>
    exact answer_fault_recorded ((hiCheck_records ..).bind fun _ => (readReg_records ..).bind fun _ =>
      (readReg_records ..).bind fun _ => Records.ok _) hf
  | tMovHi =>
    exact answer_fault_recorded ((hiCheck_records ..).bind fun _ => (readReg_records ..).bind fun _ =>
      writeReg_records ..) hf
  | tBx =>
    exact answer_fault_recorded ((failIf_records ..).bind fun _ => (readReg_records ..).bind fun _ =>
      branchExchange_records ..) hf
  | tLdrPc =>
    exact answer_fault_recorded (lowLoad_records ..) hf
  | tStrReg | tStrbReg | tStrhReg =>
    exact answer_fault_recorded ((baseIndex_records ..).bind fun _ => lowStore_records ..) hf
  | tLdrReg | tLdrbReg =>
    exact answer_fault_recorded ((baseIndex_records ..).bind fun _ => lowLoad_records ..) hf
  | tLdsb | tLdrhReg | tLdsh =>
    exact answer_fault_recorded ((baseIndex_records ..).bind fun _ => lowLoadHalf_records ..) hf
  | tStrImm | tStrbImm | tStrhImm | tStrSp =>
    exact answer_fault_recorded ((baseOffset_records ..).bind fun _ => lowStore_records ..) hf
  | tLdrImm | tLdrbImm | tLdrSp =>
    exact answer_fault_recorded ((baseOffset_records ..).bind fun _ => lowLoad_records ..) hf
  | tLdrhImm =>
    exact answer_fault_recorded ((baseOffset_records ..).bind fun _ => lowLoadHalf_records ..) hf
  | tAddPc | tBlFirst =>
    exact answer_fault_recorded (writeReg_records ..) hf
  | tAddSpRd | tAddSpImm | tSubSpImm =>
    exact answer_fault_recorded ((readReg_records ..).bind fun _ => writeReg_records ..) hf
  | tPush =>
    exact answer_fault_recorded (push_records ..) hf
  | tPop =>
    exact answer_fault_recorded (pop_records ..) hf
  | tStmia =>
    exact answer_fault_recorded (lowStoreMultiple_records ..) hf
  | tLdmia =>
    exact answer_fault_recorded (lowLoadMultiple_records ..) hf
  | tSwi | tUndefinedDe | tUndefinedE8 | tUndefinedB =>
    exact answer_fault_recorded (raise_records ..) hf
  | tBCond =>
    simp only [exec, execTBCond] at hf
    split at hf <;> cases hf
  | tB =>
    exact answer_fault_recorded (Records.ok _) hf
  | tBlSecond =>
    exact answer_fault_recorded ((readReg_records ..).bind fun _ => (writeReg_records ..).bind fun _ => Records.ok _) hf

/-- Every fault of a step is recorded in the state it leaves. -/
theorem step_fault_recorded {s : State} {f : Fault} (h : step s = .fault f) : f.IsRecorded := by
  unfold step stepWith at h
  split at h
  · exact ⟨_, _, (Host.Outcome.fault.inj h).symm⟩
  split at h
  · split at h
    · cases h
    · rename_i g hd
      cases h
      unfold dispatch at hd
      dsimp only at hd
      split at hd
      · cases hd
      · exact ⟨_, _, (Host.Outcome.fault.inj hd).symm⟩
      all_goals
        split at hd
        · exact exec_fault_recorded hd
        · exact ⟨_, _, (Host.Outcome.fault.inj hd).symm⟩
    · cases h
  · exact ⟨_, _, (Host.Outcome.fault.inj h).symm⟩

end Sys2Proof.Machine
end

