-- ==== Sys2Proof/Laws/PerInstr.lean ====
section
/-!
SUPPORT. The family Spelling, one lemma per constructor of `Instr`: an ARM instruction is spelled by an ARM word with its
condition in bits 31:28, a Thumb instruction by a Thumb halfword and without a condition (`30_encoding.md` R250, R272,
`40_pipeline.md` R363).
-/

namespace Sys2Proof.Laws.Spelling

/-- What holds of the spelling of an instruction. -/
def Statement (i : Instr) : Prop :=
  match encode i, Machine.armCond i with
  | .arm w, some c => w.extractLsb' 28 4 = c.bits
  | .thumb _, none => True
  | .arm _, none => False
  | .thumb _, some _ => False

/-- The bits of `x` stand where they stood once what follows `x` is dropped. -/
theorem peel {n m : Nat} {x : BitVec n} {y : BitVec m} {k : Nat} {c : BitVec 4} (hk : m ≤ k)
    (h : x.extractLsb' (k - m) 4 = c) : (x ++ y).extractLsb' k 4 = c := by
  rw [BitVec.extractLsb'_append_eq_of_le hk]
  exact h

theorem bx (c : Cond) (rm : Reg) : Statement (.bx c rm) := by
  change BitVec.extractLsb' 28 4 _ = _
  repeat refine peel (by decide) ?_
  exact BitVec.extractLsb'_eq_self

theorem mul (c : Cond) (sf : Bool) (rd rs rm : Reg) : Statement (.mul c sf rd rs rm) := by
  change BitVec.extractLsb' 28 4 _ = _
  repeat refine peel (by decide) ?_
  exact BitVec.extractLsb'_eq_self

theorem mla (c : Cond) (sf : Bool) (rd rn rs rm : Reg) : Statement (.mla c sf rd rn rs rm) := by
  change BitVec.extractLsb' 28 4 _ = _
  repeat refine peel (by decide) ?_
  exact BitVec.extractLsb'_eq_self

theorem umull (c : Cond) (sf : Bool) (rdHi rdLo rs rm : Reg) : Statement (.umull c sf rdHi rdLo rs rm) := by
  change BitVec.extractLsb' 28 4 _ = _
  repeat refine peel (by decide) ?_
  exact BitVec.extractLsb'_eq_self

theorem umlal (c : Cond) (sf : Bool) (rdHi rdLo rs rm : Reg) : Statement (.umlal c sf rdHi rdLo rs rm) := by
  change BitVec.extractLsb' 28 4 _ = _
  repeat refine peel (by decide) ?_
  exact BitVec.extractLsb'_eq_self

theorem smull (c : Cond) (sf : Bool) (rdHi rdLo rs rm : Reg) : Statement (.smull c sf rdHi rdLo rs rm) := by
  change BitVec.extractLsb' 28 4 _ = _
  repeat refine peel (by decide) ?_
  exact BitVec.extractLsb'_eq_self

theorem smlal (c : Cond) (sf : Bool) (rdHi rdLo rs rm : Reg) : Statement (.smlal c sf rdHi rdLo rs rm) := by
  change BitVec.extractLsb' 28 4 _ = _
  repeat refine peel (by decide) ?_
  exact BitVec.extractLsb'_eq_self

theorem swp (c : Cond) (rn rd rm : Reg) : Statement (.swp c rn rd rm) := by
  change BitVec.extractLsb' 28 4 _ = _
  repeat refine peel (by decide) ?_
  exact BitVec.extractLsb'_eq_self

theorem swpb (c : Cond) (rn rd rm : Reg) : Statement (.swpb c rn rd rm) := by
  change BitVec.extractLsb' 28 4 _ = _
  repeat refine peel (by decide) ?_
  exact BitVec.extractLsb'_eq_self

theorem strhImm (c : Cond) (p u w : Bool) (rn rd : Reg) (immHi immLo : BitVec 4) : Statement (.strhImm c p u w rn rd immHi immLo) := by
  change BitVec.extractLsb' 28 4 _ = _
  repeat refine peel (by decide) ?_
  exact BitVec.extractLsb'_eq_self

theorem strhReg (c : Cond) (p u w : Bool) (rn rd rm : Reg) : Statement (.strhReg c p u w rn rd rm) := by
  change BitVec.extractLsb' 28 4 _ = _
  repeat refine peel (by decide) ?_
  exact BitVec.extractLsb'_eq_self

theorem ldrhImm (c : Cond) (p u w : Bool) (rn rd : Reg) (immHi immLo : BitVec 4) : Statement (.ldrhImm c p u w rn rd immHi immLo) := by
  change BitVec.extractLsb' 28 4 _ = _
  repeat refine peel (by decide) ?_
  exact BitVec.extractLsb'_eq_self

theorem ldrhReg (c : Cond) (p u w : Bool) (rn rd rm : Reg) : Statement (.ldrhReg c p u w rn rd rm) := by
  change BitVec.extractLsb' 28 4 _ = _
  repeat refine peel (by decide) ?_
  exact BitVec.extractLsb'_eq_self

theorem ldrsbImm (c : Cond) (p u w : Bool) (rn rd : Reg) (immHi immLo : BitVec 4) : Statement (.ldrsbImm c p u w rn rd immHi immLo) := by
  change BitVec.extractLsb' 28 4 _ = _
  repeat refine peel (by decide) ?_
  exact BitVec.extractLsb'_eq_self

theorem ldrsbReg (c : Cond) (p u w : Bool) (rn rd rm : Reg) : Statement (.ldrsbReg c p u w rn rd rm) := by
  change BitVec.extractLsb' 28 4 _ = _
  repeat refine peel (by decide) ?_
  exact BitVec.extractLsb'_eq_self

theorem ldrshImm (c : Cond) (p u w : Bool) (rn rd : Reg) (immHi immLo : BitVec 4) : Statement (.ldrshImm c p u w rn rd immHi immLo) := by
  change BitVec.extractLsb' 28 4 _ = _
  repeat refine peel (by decide) ?_
  exact BitVec.extractLsb'_eq_self

theorem ldrshReg (c : Cond) (p u w : Bool) (rn rd rm : Reg) : Statement (.ldrshReg c p u w rn rd rm) := by
  change BitVec.extractLsb' 28 4 _ = _
  repeat refine peel (by decide) ?_
  exact BitVec.extractLsb'_eq_self

theorem halfwordSignedStore (c : Cond) (p u i w : Bool) (rn rd : Reg) (hi : BitVec 4) (h : Bool) (lo : BitVec 4) : Statement (.halfwordSignedStore c p u i w rn rd hi h lo) := by
  change BitVec.extractLsb' 28 4 _ = _
  repeat refine peel (by decide) ?_
  exact BitVec.extractLsb'_eq_self

theorem mrs (c : Cond) (r : Bool) (rd : Reg) : Statement (.mrs c r rd) := by
  change BitVec.extractLsb' 28 4 _ = _
  repeat refine peel (by decide) ?_
  exact BitVec.extractLsb'_eq_self

theorem msrReg (c : Cond) (r : Bool) (mask : BitVec 4) (rm : Reg) : Statement (.msrReg c r mask rm) := by
  change BitVec.extractLsb' 28 4 _ = _
  repeat refine peel (by decide) ?_
  exact BitVec.extractLsb'_eq_self

theorem msrImm (c : Cond) (r : Bool) (mask rot : BitVec 4) (imm8 : BitVec 8) : Statement (.msrImm c r mask rot imm8) := by
  change BitVec.extractLsb' 28 4 _ = _
  repeat refine peel (by decide) ?_
  exact BitVec.extractLsb'_eq_self

theorem andImm (c : Cond) (sf : Bool) (rn rd : Reg) (rot : BitVec 4) (imm8 : BitVec 8) : Statement (.andImm c sf rn rd rot imm8) := by
  change BitVec.extractLsb' 28 4 _ = _
  repeat refine peel (by decide) ?_
  exact BitVec.extractLsb'_eq_self

theorem andRegImmShift (c : Cond) (sf : Bool) (rn rd : Reg) (amount : BitVec 5) (k : ShiftKind) (rm : Reg) : Statement (.andRegImmShift c sf rn rd amount k rm) := by
  change BitVec.extractLsb' 28 4 _ = _
  repeat refine peel (by decide) ?_
  exact BitVec.extractLsb'_eq_self

theorem andRegRegShift (c : Cond) (sf : Bool) (rn rd rs : Reg) (k : ShiftKind) (rm : Reg) : Statement (.andRegRegShift c sf rn rd rs k rm) := by
  change BitVec.extractLsb' 28 4 _ = _
  repeat refine peel (by decide) ?_
  exact BitVec.extractLsb'_eq_self

theorem eorImm (c : Cond) (sf : Bool) (rn rd : Reg) (rot : BitVec 4) (imm8 : BitVec 8) : Statement (.eorImm c sf rn rd rot imm8) := by
  change BitVec.extractLsb' 28 4 _ = _
  repeat refine peel (by decide) ?_
  exact BitVec.extractLsb'_eq_self

theorem eorRegImmShift (c : Cond) (sf : Bool) (rn rd : Reg) (amount : BitVec 5) (k : ShiftKind) (rm : Reg) : Statement (.eorRegImmShift c sf rn rd amount k rm) := by
  change BitVec.extractLsb' 28 4 _ = _
  repeat refine peel (by decide) ?_
  exact BitVec.extractLsb'_eq_self

theorem eorRegRegShift (c : Cond) (sf : Bool) (rn rd rs : Reg) (k : ShiftKind) (rm : Reg) : Statement (.eorRegRegShift c sf rn rd rs k rm) := by
  change BitVec.extractLsb' 28 4 _ = _
  repeat refine peel (by decide) ?_
  exact BitVec.extractLsb'_eq_self

theorem subImm (c : Cond) (sf : Bool) (rn rd : Reg) (rot : BitVec 4) (imm8 : BitVec 8) : Statement (.subImm c sf rn rd rot imm8) := by
  change BitVec.extractLsb' 28 4 _ = _
  repeat refine peel (by decide) ?_
  exact BitVec.extractLsb'_eq_self

theorem subRegImmShift (c : Cond) (sf : Bool) (rn rd : Reg) (amount : BitVec 5) (k : ShiftKind) (rm : Reg) : Statement (.subRegImmShift c sf rn rd amount k rm) := by
  change BitVec.extractLsb' 28 4 _ = _
  repeat refine peel (by decide) ?_
  exact BitVec.extractLsb'_eq_self

theorem subRegRegShift (c : Cond) (sf : Bool) (rn rd rs : Reg) (k : ShiftKind) (rm : Reg) : Statement (.subRegRegShift c sf rn rd rs k rm) := by
  change BitVec.extractLsb' 28 4 _ = _
  repeat refine peel (by decide) ?_
  exact BitVec.extractLsb'_eq_self

theorem rsbImm (c : Cond) (sf : Bool) (rn rd : Reg) (rot : BitVec 4) (imm8 : BitVec 8) : Statement (.rsbImm c sf rn rd rot imm8) := by
  change BitVec.extractLsb' 28 4 _ = _
  repeat refine peel (by decide) ?_
  exact BitVec.extractLsb'_eq_self

theorem rsbRegImmShift (c : Cond) (sf : Bool) (rn rd : Reg) (amount : BitVec 5) (k : ShiftKind) (rm : Reg) : Statement (.rsbRegImmShift c sf rn rd amount k rm) := by
  change BitVec.extractLsb' 28 4 _ = _
  repeat refine peel (by decide) ?_
  exact BitVec.extractLsb'_eq_self

theorem rsbRegRegShift (c : Cond) (sf : Bool) (rn rd rs : Reg) (k : ShiftKind) (rm : Reg) : Statement (.rsbRegRegShift c sf rn rd rs k rm) := by
  change BitVec.extractLsb' 28 4 _ = _
  repeat refine peel (by decide) ?_
  exact BitVec.extractLsb'_eq_self

theorem addImm (c : Cond) (sf : Bool) (rn rd : Reg) (rot : BitVec 4) (imm8 : BitVec 8) : Statement (.addImm c sf rn rd rot imm8) := by
  change BitVec.extractLsb' 28 4 _ = _
  repeat refine peel (by decide) ?_
  exact BitVec.extractLsb'_eq_self

theorem addRegImmShift (c : Cond) (sf : Bool) (rn rd : Reg) (amount : BitVec 5) (k : ShiftKind) (rm : Reg) : Statement (.addRegImmShift c sf rn rd amount k rm) := by
  change BitVec.extractLsb' 28 4 _ = _
  repeat refine peel (by decide) ?_
  exact BitVec.extractLsb'_eq_self

theorem addRegRegShift (c : Cond) (sf : Bool) (rn rd rs : Reg) (k : ShiftKind) (rm : Reg) : Statement (.addRegRegShift c sf rn rd rs k rm) := by
  change BitVec.extractLsb' 28 4 _ = _
  repeat refine peel (by decide) ?_
  exact BitVec.extractLsb'_eq_self

theorem adcImm (c : Cond) (sf : Bool) (rn rd : Reg) (rot : BitVec 4) (imm8 : BitVec 8) : Statement (.adcImm c sf rn rd rot imm8) := by
  change BitVec.extractLsb' 28 4 _ = _
  repeat refine peel (by decide) ?_
  exact BitVec.extractLsb'_eq_self

theorem adcRegImmShift (c : Cond) (sf : Bool) (rn rd : Reg) (amount : BitVec 5) (k : ShiftKind) (rm : Reg) : Statement (.adcRegImmShift c sf rn rd amount k rm) := by
  change BitVec.extractLsb' 28 4 _ = _
  repeat refine peel (by decide) ?_
  exact BitVec.extractLsb'_eq_self

theorem adcRegRegShift (c : Cond) (sf : Bool) (rn rd rs : Reg) (k : ShiftKind) (rm : Reg) : Statement (.adcRegRegShift c sf rn rd rs k rm) := by
  change BitVec.extractLsb' 28 4 _ = _
  repeat refine peel (by decide) ?_
  exact BitVec.extractLsb'_eq_self

theorem sbcImm (c : Cond) (sf : Bool) (rn rd : Reg) (rot : BitVec 4) (imm8 : BitVec 8) : Statement (.sbcImm c sf rn rd rot imm8) := by
  change BitVec.extractLsb' 28 4 _ = _
  repeat refine peel (by decide) ?_
  exact BitVec.extractLsb'_eq_self

theorem sbcRegImmShift (c : Cond) (sf : Bool) (rn rd : Reg) (amount : BitVec 5) (k : ShiftKind) (rm : Reg) : Statement (.sbcRegImmShift c sf rn rd amount k rm) := by
  change BitVec.extractLsb' 28 4 _ = _
  repeat refine peel (by decide) ?_
  exact BitVec.extractLsb'_eq_self

theorem sbcRegRegShift (c : Cond) (sf : Bool) (rn rd rs : Reg) (k : ShiftKind) (rm : Reg) : Statement (.sbcRegRegShift c sf rn rd rs k rm) := by
  change BitVec.extractLsb' 28 4 _ = _
  repeat refine peel (by decide) ?_
  exact BitVec.extractLsb'_eq_self

theorem rscImm (c : Cond) (sf : Bool) (rn rd : Reg) (rot : BitVec 4) (imm8 : BitVec 8) : Statement (.rscImm c sf rn rd rot imm8) := by
  change BitVec.extractLsb' 28 4 _ = _
  repeat refine peel (by decide) ?_
  exact BitVec.extractLsb'_eq_self

theorem rscRegImmShift (c : Cond) (sf : Bool) (rn rd : Reg) (amount : BitVec 5) (k : ShiftKind) (rm : Reg) : Statement (.rscRegImmShift c sf rn rd amount k rm) := by
  change BitVec.extractLsb' 28 4 _ = _
  repeat refine peel (by decide) ?_
  exact BitVec.extractLsb'_eq_self

theorem rscRegRegShift (c : Cond) (sf : Bool) (rn rd rs : Reg) (k : ShiftKind) (rm : Reg) : Statement (.rscRegRegShift c sf rn rd rs k rm) := by
  change BitVec.extractLsb' 28 4 _ = _
  repeat refine peel (by decide) ?_
  exact BitVec.extractLsb'_eq_self

theorem tstImm (c : Cond) (rn : Reg) (rot : BitVec 4) (imm8 : BitVec 8) : Statement (.tstImm c rn rot imm8) := by
  change BitVec.extractLsb' 28 4 _ = _
  repeat refine peel (by decide) ?_
  exact BitVec.extractLsb'_eq_self

theorem tstRegImmShift (c : Cond) (rn : Reg) (amount : BitVec 5) (k : ShiftKind) (rm : Reg) : Statement (.tstRegImmShift c rn amount k rm) := by
  change BitVec.extractLsb' 28 4 _ = _
  repeat refine peel (by decide) ?_
  exact BitVec.extractLsb'_eq_self

theorem tstRegRegShift (c : Cond) (rn rd rs : Reg) (k : ShiftKind) (rm : Reg) : Statement (.tstRegRegShift c rn rd rs k rm) := by
  change BitVec.extractLsb' 28 4 _ = _
  repeat refine peel (by decide) ?_
  exact BitVec.extractLsb'_eq_self

theorem teqImm (c : Cond) (rn : Reg) (rot : BitVec 4) (imm8 : BitVec 8) : Statement (.teqImm c rn rot imm8) := by
  change BitVec.extractLsb' 28 4 _ = _
  repeat refine peel (by decide) ?_
  exact BitVec.extractLsb'_eq_self

theorem teqRegImmShift (c : Cond) (rn : Reg) (amount : BitVec 5) (k : ShiftKind) (rm : Reg) : Statement (.teqRegImmShift c rn amount k rm) := by
  change BitVec.extractLsb' 28 4 _ = _
  repeat refine peel (by decide) ?_
  exact BitVec.extractLsb'_eq_self

theorem teqRegRegShift (c : Cond) (rn rd rs : Reg) (k : ShiftKind) (rm : Reg) : Statement (.teqRegRegShift c rn rd rs k rm) := by
  change BitVec.extractLsb' 28 4 _ = _
  repeat refine peel (by decide) ?_
  exact BitVec.extractLsb'_eq_self

theorem cmpImm (c : Cond) (rn : Reg) (rot : BitVec 4) (imm8 : BitVec 8) : Statement (.cmpImm c rn rot imm8) := by
  change BitVec.extractLsb' 28 4 _ = _
  repeat refine peel (by decide) ?_
  exact BitVec.extractLsb'_eq_self

theorem cmpRegImmShift (c : Cond) (rn : Reg) (amount : BitVec 5) (k : ShiftKind) (rm : Reg) : Statement (.cmpRegImmShift c rn amount k rm) := by
  change BitVec.extractLsb' 28 4 _ = _
  repeat refine peel (by decide) ?_
  exact BitVec.extractLsb'_eq_self

theorem cmpRegRegShift (c : Cond) (rn rd rs : Reg) (k : ShiftKind) (rm : Reg) : Statement (.cmpRegRegShift c rn rd rs k rm) := by
  change BitVec.extractLsb' 28 4 _ = _
  repeat refine peel (by decide) ?_
  exact BitVec.extractLsb'_eq_self

theorem cmnImm (c : Cond) (rn : Reg) (rot : BitVec 4) (imm8 : BitVec 8) : Statement (.cmnImm c rn rot imm8) := by
  change BitVec.extractLsb' 28 4 _ = _
  repeat refine peel (by decide) ?_
  exact BitVec.extractLsb'_eq_self

theorem cmnRegImmShift (c : Cond) (rn : Reg) (amount : BitVec 5) (k : ShiftKind) (rm : Reg) : Statement (.cmnRegImmShift c rn amount k rm) := by
  change BitVec.extractLsb' 28 4 _ = _
  repeat refine peel (by decide) ?_
  exact BitVec.extractLsb'_eq_self

theorem cmnRegRegShift (c : Cond) (rn rd rs : Reg) (k : ShiftKind) (rm : Reg) : Statement (.cmnRegRegShift c rn rd rs k rm) := by
  change BitVec.extractLsb' 28 4 _ = _
  repeat refine peel (by decide) ?_
  exact BitVec.extractLsb'_eq_self

theorem orrImm (c : Cond) (sf : Bool) (rn rd : Reg) (rot : BitVec 4) (imm8 : BitVec 8) : Statement (.orrImm c sf rn rd rot imm8) := by
  change BitVec.extractLsb' 28 4 _ = _
  repeat refine peel (by decide) ?_
  exact BitVec.extractLsb'_eq_self

theorem orrRegImmShift (c : Cond) (sf : Bool) (rn rd : Reg) (amount : BitVec 5) (k : ShiftKind) (rm : Reg) : Statement (.orrRegImmShift c sf rn rd amount k rm) := by
  change BitVec.extractLsb' 28 4 _ = _
  repeat refine peel (by decide) ?_
  exact BitVec.extractLsb'_eq_self

theorem orrRegRegShift (c : Cond) (sf : Bool) (rn rd rs : Reg) (k : ShiftKind) (rm : Reg) : Statement (.orrRegRegShift c sf rn rd rs k rm) := by
  change BitVec.extractLsb' 28 4 _ = _
  repeat refine peel (by decide) ?_
  exact BitVec.extractLsb'_eq_self

theorem movImm (c : Cond) (sf : Bool) (rd : Reg) (rot : BitVec 4) (imm8 : BitVec 8) : Statement (.movImm c sf rd rot imm8) := by
  change BitVec.extractLsb' 28 4 _ = _
  repeat refine peel (by decide) ?_
  exact BitVec.extractLsb'_eq_self

theorem movRegImmShift (c : Cond) (sf : Bool) (rd : Reg) (amount : BitVec 5) (k : ShiftKind) (rm : Reg) : Statement (.movRegImmShift c sf rd amount k rm) := by
  change BitVec.extractLsb' 28 4 _ = _
  repeat refine peel (by decide) ?_
  exact BitVec.extractLsb'_eq_self

theorem movRegRegShift (c : Cond) (sf : Bool) (rn rd rs : Reg) (k : ShiftKind) (rm : Reg) : Statement (.movRegRegShift c sf rn rd rs k rm) := by
  change BitVec.extractLsb' 28 4 _ = _
  repeat refine peel (by decide) ?_
  exact BitVec.extractLsb'_eq_self

theorem bicImm (c : Cond) (sf : Bool) (rn rd : Reg) (rot : BitVec 4) (imm8 : BitVec 8) : Statement (.bicImm c sf rn rd rot imm8) := by
  change BitVec.extractLsb' 28 4 _ = _
  repeat refine peel (by decide) ?_
  exact BitVec.extractLsb'_eq_self

theorem bicRegImmShift (c : Cond) (sf : Bool) (rn rd : Reg) (amount : BitVec 5) (k : ShiftKind) (rm : Reg) : Statement (.bicRegImmShift c sf rn rd amount k rm) := by
  change BitVec.extractLsb' 28 4 _ = _
  repeat refine peel (by decide) ?_
  exact BitVec.extractLsb'_eq_self

theorem bicRegRegShift (c : Cond) (sf : Bool) (rn rd rs : Reg) (k : ShiftKind) (rm : Reg) : Statement (.bicRegRegShift c sf rn rd rs k rm) := by
  change BitVec.extractLsb' 28 4 _ = _
  repeat refine peel (by decide) ?_
  exact BitVec.extractLsb'_eq_self

theorem mvnImm (c : Cond) (sf : Bool) (rd : Reg) (rot : BitVec 4) (imm8 : BitVec 8) : Statement (.mvnImm c sf rd rot imm8) := by
  change BitVec.extractLsb' 28 4 _ = _
  repeat refine peel (by decide) ?_
  exact BitVec.extractLsb'_eq_self

theorem mvnRegImmShift (c : Cond) (sf : Bool) (rd : Reg) (amount : BitVec 5) (k : ShiftKind) (rm : Reg) : Statement (.mvnRegImmShift c sf rd amount k rm) := by
  change BitVec.extractLsb' 28 4 _ = _
  repeat refine peel (by decide) ?_
  exact BitVec.extractLsb'_eq_self

theorem mvnRegRegShift (c : Cond) (sf : Bool) (rn rd rs : Reg) (k : ShiftKind) (rm : Reg) : Statement (.mvnRegRegShift c sf rn rd rs k rm) := by
  change BitVec.extractLsb' 28 4 _ = _
  repeat refine peel (by decide) ?_
  exact BitVec.extractLsb'_eq_self

theorem undefinedRow8 (c : Cond) (upper : BitVec 20) (lower : BitVec 4) : Statement (.undefinedRow8 c upper lower) := by
  change BitVec.extractLsb' 28 4 _ = _
  repeat refine peel (by decide) ?_
  exact BitVec.extractLsb'_eq_self

theorem strt (c : Cond) (u : Bool) (rn rd : Reg) (off : SdtOffset) : Statement (.strt c u rn rd off) := by
  change BitVec.extractLsb' 28 4 _ = _
  repeat refine peel (by decide) ?_
  exact BitVec.extractLsb'_eq_self

theorem ldrt (c : Cond) (u : Bool) (rn rd : Reg) (off : SdtOffset) : Statement (.ldrt c u rn rd off) := by
  change BitVec.extractLsb' 28 4 _ = _
  repeat refine peel (by decide) ?_
  exact BitVec.extractLsb'_eq_self

theorem strbt (c : Cond) (u : Bool) (rn rd : Reg) (off : SdtOffset) : Statement (.strbt c u rn rd off) := by
  change BitVec.extractLsb' 28 4 _ = _
  repeat refine peel (by decide) ?_
  exact BitVec.extractLsb'_eq_self

theorem ldrbt (c : Cond) (u : Bool) (rn rd : Reg) (off : SdtOffset) : Statement (.ldrbt c u rn rd off) := by
  change BitVec.extractLsb' 28 4 _ = _
  repeat refine peel (by decide) ?_
  exact BitVec.extractLsb'_eq_self

theorem str (c : Cond) (p u w : Bool) (rn rd : Reg) (off : SdtOffset) : Statement (.str c p u w rn rd off) := by
  change BitVec.extractLsb' 28 4 _ = _
  repeat refine peel (by decide) ?_
  exact BitVec.extractLsb'_eq_self

theorem ldr (c : Cond) (p u w : Bool) (rn rd : Reg) (off : SdtOffset) : Statement (.ldr c p u w rn rd off) := by
  change BitVec.extractLsb' 28 4 _ = _
  repeat refine peel (by decide) ?_
  exact BitVec.extractLsb'_eq_self

theorem strb (c : Cond) (p u w : Bool) (rn rd : Reg) (off : SdtOffset) : Statement (.strb c p u w rn rd off) := by
  change BitVec.extractLsb' 28 4 _ = _
  repeat refine peel (by decide) ?_
  exact BitVec.extractLsb'_eq_self

theorem ldrb (c : Cond) (p u w : Bool) (rn rd : Reg) (off : SdtOffset) : Statement (.ldrb c p u w rn rd off) := by
  change BitVec.extractLsb' 28 4 _ = _
  repeat refine peel (by decide) ?_
  exact BitVec.extractLsb'_eq_self

theorem stmda (c : Cond) (sb w : Bool) (rn : Reg) (list : BitVec 16) : Statement (.stmda c sb w rn list) := by
  change BitVec.extractLsb' 28 4 _ = _
  repeat refine peel (by decide) ?_
  exact BitVec.extractLsb'_eq_self

theorem ldmda (c : Cond) (sb w : Bool) (rn : Reg) (list : BitVec 16) : Statement (.ldmda c sb w rn list) := by
  change BitVec.extractLsb' 28 4 _ = _
  repeat refine peel (by decide) ?_
  exact BitVec.extractLsb'_eq_self

theorem stmia (c : Cond) (sb w : Bool) (rn : Reg) (list : BitVec 16) : Statement (.stmia c sb w rn list) := by
  change BitVec.extractLsb' 28 4 _ = _
  repeat refine peel (by decide) ?_
  exact BitVec.extractLsb'_eq_self

theorem ldmia (c : Cond) (sb w : Bool) (rn : Reg) (list : BitVec 16) : Statement (.ldmia c sb w rn list) := by
  change BitVec.extractLsb' 28 4 _ = _
  repeat refine peel (by decide) ?_
  exact BitVec.extractLsb'_eq_self

theorem stmdb (c : Cond) (sb w : Bool) (rn : Reg) (list : BitVec 16) : Statement (.stmdb c sb w rn list) := by
  change BitVec.extractLsb' 28 4 _ = _
  repeat refine peel (by decide) ?_
  exact BitVec.extractLsb'_eq_self

theorem ldmdb (c : Cond) (sb w : Bool) (rn : Reg) (list : BitVec 16) : Statement (.ldmdb c sb w rn list) := by
  change BitVec.extractLsb' 28 4 _ = _
  repeat refine peel (by decide) ?_
  exact BitVec.extractLsb'_eq_self

theorem stmib (c : Cond) (sb w : Bool) (rn : Reg) (list : BitVec 16) : Statement (.stmib c sb w rn list) := by
  change BitVec.extractLsb' 28 4 _ = _
  repeat refine peel (by decide) ?_
  exact BitVec.extractLsb'_eq_self

theorem ldmib (c : Cond) (sb w : Bool) (rn : Reg) (list : BitVec 16) : Statement (.ldmib c sb w rn list) := by
  change BitVec.extractLsb' 28 4 _ = _
  repeat refine peel (by decide) ?_
  exact BitVec.extractLsb'_eq_self

theorem b (c : Cond) (imm24 : BitVec 24) : Statement (.b c imm24) := by
  change BitVec.extractLsb' 28 4 _ = _
  repeat refine peel (by decide) ?_
  exact BitVec.extractLsb'_eq_self

theorem bl (c : Cond) (imm24 : BitVec 24) : Statement (.bl c imm24) := by
  change BitVec.extractLsb' 28 4 _ = _
  repeat refine peel (by decide) ?_
  exact BitVec.extractLsb'_eq_self

theorem ldcStcUndefined (c : Cond) (p u n w l : Bool) (rn : Reg) (crd cp : BitVec 4) (off : BitVec 8) : Statement (.ldcStcUndefined c p u n w l rn crd cp off) := by
  change BitVec.extractLsb' 28 4 _ = _
  repeat refine peel (by decide) ?_
  exact BitVec.extractLsb'_eq_self

theorem cdp (c : Cond) (op1 crn crd cp : BitVec 4) (op2 : BitVec 3) (crm : BitVec 4) : Statement (.cdp c op1 crn crd cp op2 crm) := by
  change BitVec.extractLsb' 28 4 _ = _
  repeat refine peel (by decide) ?_
  exact BitVec.extractLsb'_eq_self

theorem mcr (c : Cond) (op1 : BitVec 3) (crn : BitVec 4) (rd : Reg) (cp : BitVec 4) (op2 : BitVec 3) (crm : BitVec 4) : Statement (.mcr c op1 crn rd cp op2 crm) := by
  change BitVec.extractLsb' 28 4 _ = _
  repeat refine peel (by decide) ?_
  exact BitVec.extractLsb'_eq_self

theorem mrc (c : Cond) (op1 : BitVec 3) (crn : BitVec 4) (rd : Reg) (cp : BitVec 4) (op2 : BitVec 3) (crm : BitVec 4) : Statement (.mrc c op1 crn rd cp op2 crm) := by
  change BitVec.extractLsb' 28 4 _ = _
  repeat refine peel (by decide) ?_
  exact BitVec.extractLsb'_eq_self

theorem swi (c : Cond) (comment : BitVec 24) : Statement (.swi c comment) := by
  change BitVec.extractLsb' 28 4 _ = _
  repeat refine peel (by decide) ?_
  exact BitVec.extractLsb'_eq_self

theorem tAddReg (rn rs rd : LowReg) : Statement (.tAddReg rn rs rd) := trivial

theorem tSubReg (rn rs rd : LowReg) : Statement (.tSubReg rn rs rd) := trivial

theorem tAddImm3 (imm3 : BitVec 3) (rs rd : LowReg) : Statement (.tAddImm3 imm3 rs rd) := trivial

theorem tSubImm3 (imm3 : BitVec 3) (rs rd : LowReg) : Statement (.tSubImm3 imm3 rs rd) := trivial

theorem tLslImm (amount : BitVec 5) (rs rd : LowReg) : Statement (.tLslImm amount rs rd) := trivial

theorem tLsrImm (amount : BitVec 5) (rs rd : LowReg) : Statement (.tLsrImm amount rs rd) := trivial

theorem tAsrImm (amount : BitVec 5) (rs rd : LowReg) : Statement (.tAsrImm amount rs rd) := trivial

theorem tMovImm (rd : LowReg) (imm8 : BitVec 8) : Statement (.tMovImm rd imm8) := trivial

theorem tCmpImm (rd : LowReg) (imm8 : BitVec 8) : Statement (.tCmpImm rd imm8) := trivial

theorem tAddImm8 (rd : LowReg) (imm8 : BitVec 8) : Statement (.tAddImm8 rd imm8) := trivial

theorem tSubImm8 (rd : LowReg) (imm8 : BitVec 8) : Statement (.tSubImm8 rd imm8) := trivial

theorem tAnd (rs rd : LowReg) : Statement (.tAnd rs rd) := trivial

theorem tEor (rs rd : LowReg) : Statement (.tEor rs rd) := trivial

theorem tLslReg (rs rd : LowReg) : Statement (.tLslReg rs rd) := trivial

theorem tLsrReg (rs rd : LowReg) : Statement (.tLsrReg rs rd) := trivial

theorem tAsrReg (rs rd : LowReg) : Statement (.tAsrReg rs rd) := trivial

theorem tAdc (rs rd : LowReg) : Statement (.tAdc rs rd) := trivial

theorem tSbc (rs rd : LowReg) : Statement (.tSbc rs rd) := trivial

theorem tRor (rs rd : LowReg) : Statement (.tRor rs rd) := trivial

theorem tTst (rs rd : LowReg) : Statement (.tTst rs rd) := trivial

theorem tNeg (rs rd : LowReg) : Statement (.tNeg rs rd) := trivial

theorem tCmpReg (rs rd : LowReg) : Statement (.tCmpReg rs rd) := trivial

theorem tCmn (rs rd : LowReg) : Statement (.tCmn rs rd) := trivial

theorem tOrr (rs rd : LowReg) : Statement (.tOrr rs rd) := trivial

theorem tMul (rs rd : LowReg) : Statement (.tMul rs rd) := trivial

theorem tBic (rs rd : LowReg) : Statement (.tBic rs rd) := trivial

theorem tMvn (rs rd : LowReg) : Statement (.tMvn rs rd) := trivial

theorem tAddHi (h1 h2 : Bool) (rs rd : LowReg) : Statement (.tAddHi h1 h2 rs rd) := trivial

theorem tCmpHi (h1 h2 : Bool) (rs rd : LowReg) : Statement (.tCmpHi h1 h2 rs rd) := trivial

theorem tMovHi (h1 h2 : Bool) (rs rd : LowReg) : Statement (.tMovHi h1 h2 rs rd) := trivial

theorem tBx (h1 h2 : Bool) (rs rd : LowReg) : Statement (.tBx h1 h2 rs rd) := trivial

theorem tLdrPc (rd : LowReg) (word8 : BitVec 8) : Statement (.tLdrPc rd word8) := trivial

theorem tStrReg (ro rb rd : LowReg) : Statement (.tStrReg ro rb rd) := trivial

theorem tStrbReg (ro rb rd : LowReg) : Statement (.tStrbReg ro rb rd) := trivial

theorem tLdrReg (ro rb rd : LowReg) : Statement (.tLdrReg ro rb rd) := trivial

theorem tLdrbReg (ro rb rd : LowReg) : Statement (.tLdrbReg ro rb rd) := trivial

theorem tStrhReg (ro rb rd : LowReg) : Statement (.tStrhReg ro rb rd) := trivial

theorem tLdsb (ro rb rd : LowReg) : Statement (.tLdsb ro rb rd) := trivial

theorem tLdrhReg (ro rb rd : LowReg) : Statement (.tLdrhReg ro rb rd) := trivial

theorem tLdsh (ro rb rd : LowReg) : Statement (.tLdsh ro rb rd) := trivial

theorem tStrImm (off5 : BitVec 5) (rb rd : LowReg) : Statement (.tStrImm off5 rb rd) := trivial

theorem tLdrImm (off5 : BitVec 5) (rb rd : LowReg) : Statement (.tLdrImm off5 rb rd) := trivial

theorem tStrbImm (off5 : BitVec 5) (rb rd : LowReg) : Statement (.tStrbImm off5 rb rd) := trivial

theorem tLdrbImm (off5 : BitVec 5) (rb rd : LowReg) : Statement (.tLdrbImm off5 rb rd) := trivial

theorem tStrhImm (off5 : BitVec 5) (rb rd : LowReg) : Statement (.tStrhImm off5 rb rd) := trivial

theorem tLdrhImm (off5 : BitVec 5) (rb rd : LowReg) : Statement (.tLdrhImm off5 rb rd) := trivial

theorem tStrSp (rd : LowReg) (word8 : BitVec 8) : Statement (.tStrSp rd word8) := trivial

theorem tLdrSp (rd : LowReg) (word8 : BitVec 8) : Statement (.tLdrSp rd word8) := trivial

theorem tAddPc (rd : LowReg) (word8 : BitVec 8) : Statement (.tAddPc rd word8) := trivial

theorem tAddSpRd (rd : LowReg) (word8 : BitVec 8) : Statement (.tAddSpRd rd word8) := trivial

theorem tAddSpImm (sword7 : BitVec 7) : Statement (.tAddSpImm sword7) := trivial

theorem tSubSpImm (sword7 : BitVec 7) : Statement (.tSubSpImm sword7) := trivial

theorem tPush (r : Bool) (rlist : BitVec 8) : Statement (.tPush r rlist) := trivial

theorem tPop (r : Bool) (rlist : BitVec 8) : Statement (.tPop r rlist) := trivial

theorem tStmia (rb : LowReg) (rlist : BitVec 8) : Statement (.tStmia rb rlist) := trivial

theorem tLdmia (rb : LowReg) (rlist : BitVec 8) : Statement (.tLdmia rb rlist) := trivial

theorem tSwi (value8 : BitVec 8) : Statement (.tSwi value8) := trivial

theorem tUndefinedDe (payload : BitVec 8) : Statement (.tUndefinedDe payload) := trivial

theorem tBCond (c : Cond) (soff8 : BitVec 8) : Statement (.tBCond c soff8) := trivial

theorem tB (off11 : BitVec 11) : Statement (.tB off11) := trivial

theorem tUndefinedE8 (payload : BitVec 11) : Statement (.tUndefinedE8 payload) := trivial

theorem tBlFirst (off11 : BitVec 11) : Statement (.tBlFirst off11) := trivial

theorem tBlSecond (off11 : BitVec 11) : Statement (.tBlSecond off11) := trivial

theorem tUndefinedB (payload : BitVec 12) : Statement (.tUndefinedB payload) := trivial

end Sys2Proof.Laws.Spelling
end

