-- ==== Sys2Proof/Tests/Slice0.lean ====
section
/-!
SUPPORT. The model's own tests: ill-formed terms refused, one word decoded per row of the table, one step or one meaning
per instruction with the result the spec gives (`95_test_vectors.md`, else the example of the instruction's rule), and
for every obligation a state and operands that meet its hypotheses.
-/

namespace Sys2Proof.Tests

open Machine

/-! ### The states the tests start from -/

/-- ARM state, System mode, the flags clear, the executing instruction at 0x08000000. -/
def arm : State :=
  { State.reset with
    cpsr := { Psr.zero with mode := 0x1F }
    regs := { RegBank.zero with pc := 0x08000008 }
    primed := true }

/-- Thumb state, System mode, the flags clear, the executing instruction at 0x08000000. -/
def thumb : State :=
  { arm with cpsr := { arm.cpsr with t := true }, regs := { RegBank.zero with pc := 0x08000004 } }

/-- Registers set. -/
def put (l : List (RegCell × Word)) (s : State) : State :=
  { s with regs := l.foldl (fun b x => b.write x.1 x.2) s.regs }

/-- Words stored. -/
def store (l : List (Word × Word)) (s : State) : State := l.foldl (fun s x => write32 x.1 x.2 s) s

/-- The memory of the V-SDT vectors. -/
def sdtWords (s : State) : State := store [(0x03000104, 0x11223344), (0x03000100, 0xAABBCCDD)] s

/-- The bytes 80 FF 34 12 of the V-HW vectors. -/
def halfBytes (s : State) : State := store [(0x03000100, 0x1234FF80)] s

/-- The memory of the V-BLK vectors. -/
def blockWords (s : State) : State :=
  store [(0x030000F8, 0x11111111), (0x030000FC, 0x22222222), (0x03000100, 0x33333333), (0x03000104, 0x44444444),
    (0x03000108, 0x55555555)] s

/-- The bytes 80 FF 34 12 of the V-TH vectors. -/
def loadBytes (s : State) : State := store [(0x03000104, 0x1234FF80)] s

/-- The flags set. -/
def flags (n z c v : Bool) (s : State) : State := { s with cpsr := { s.cpsr with n := n, z := z, c := c, v := v } }

/-- The mode set. -/
def inMode (m : ModeBits) (s : State) : State := { s with cpsr := { s.cpsr with mode := m } }

/-- EXC_POLICY set. -/
def policy (p : ExcPolicy) (s : State) : State := { s with config := { s.config with excPolicy := p } }

/-- An ARM word in the executing slot. -/
def slot (w : Word) (s : State) : State := { s with armExecuting := some w }

/-! ### What the tests look at -/

/-- The meaning of an ARM word. -/
def run (w : Word) (s : State) : Answer := exec (decodeArm w) s

/-- The meaning of a Thumb halfword. -/
def runThumb (h : Half) (s : State) : Answer := exec (decodeThumb h) s

/-- The next state, if there is one. -/
def next? (o : Answer) : Option State :=
  match o with
  | .next s => some s
  | _ => none

/-- The reason of the fault, if there is one. -/
def faultOf (o : Answer) : Option FaultReason :=
  match o with
  | .fault (.stopped r _) => some r
  | _ => none

/-- The state a fault leaves. -/
def leftBy? (o : Answer) : Option State :=
  match o with
  | .fault (.stopped _ s) => some s
  | _ => none

/-- Register words of the next state. -/
def regsOf (o : Answer) (cs : List RegCell) : Option (List Word) := (next? o).map fun s => cs.map s.regs.read

/-- N, Z, C and V of the next state. -/
def flagsOf (o : Answer) : Option (List Bool) := (next? o).map fun s => [s.cpsr.n, s.cpsr.z, s.cpsr.c, s.cpsr.v]

/-- The status word of the next state. -/
def cpsrOf (o : Answer) : Option Word := (next? o).map fun s => s.cpsr.toWord

/-- `n` bytes of the next state from an address on. -/
def bytesOf (o : Answer) (a : Word) (n : Nat) : Option (List Byte) :=
  (next? o).map fun s => (List.range n).map fun j => inspectByte (a + BitVec.ofNat 32 j) s

/-- An exception entry: the R14 named, the saved status word, the status word and the program counter. -/
def entry (o : Answer) (c : RegCell) : Option (Word × Word × Word × Word) :=
  (next? o).map fun s => (s.regs.read c, (getSpsr s).toWord, s.cpsr.toWord, s.regs.pc)

/-! ### Well-formedness refuses -/

/-- P = 0 with W = 1 is the T form, another row (R510, R512, R514, R515). -/
theorem test_wf_refuses_str : Instr.wellFormed (.str .al false true true 1 0 (.imm 4)) = false := by decide

theorem test_wf_refuses_ldr : Instr.wellFormed (.ldr .al false true true 1 0 (.imm 4)) = false := by decide

theorem test_wf_refuses_strb : Instr.wellFormed (.strb .al false true true 1 0 (.imm 4)) = false := by decide

theorem test_wf_refuses_ldrb : Instr.wellFormed (.ldrb .al false true true 1 0 (.imm 4)) = false := by decide

/-- The condition codes 1110 and 1111 of format T16 are other rows (R876). -/
theorem test_wf_refuses_thumb_condition :
    Instr.wellFormed (.tBCond .al 0) = false ∧ Instr.wellFormed (.tBCond .nv 0) = false := by decide

/-- Formats T13 and T14 are no gaps of the 1011 space (R271). -/
theorem test_wf_refuses_thumb_gap :
    Instr.wellFormed (.tUndefinedB 0x0FF) = false ∧ Instr.wellFormed (.tUndefinedB 0x400) = false ∧
    Instr.wellFormed (.tUndefinedB 0xDFF) = false := by decide

/-! ### Decoding: a word of each row, its fields at the positions the table gives -/

/-- Decode rows 1, 2, 3, 4 of the ARM table. -/
theorem test_decode_arm_1 :
    decodeTableWord 32 0x9128771A = some (.bx .ls 10) ∧
    decodeTableWord 32 0x601D3A94 = some (.mul .vs true 13 10 4) ∧
    decodeTableWord 32 0x80214C9B = some (.mla .hi false 1 4 12 11) ∧
    decodeTableWord 32 0x8087B19D = some (.umull .hi false 7 11 1 13) ∧
    decodeTableWord 32 0x90B3F697 = some (.umlal .ls true 3 15 6 7) ∧
    decodeTableWord 32 0xC0C74D99 = some (.smull .gt false 7 4 13 9) ∧
    decodeTableWord 32 0x20F8DE9C = some (.smlal .cs true 8 13 14 12) ∧
    decodeTableWord 32 0xB105139D = some (.swp .lt 5 1 13) ∧
    decodeTableWord 32 0x51439E9D = some (.swpb .pl 3 9 13) := by decide

/-- Decode rows 5, 6 of the ARM table. -/
theorem test_decode_arm_2 :
    decodeTableWord 32 0xE0C532BF = some (.strhImm .al false true false 5 3 2 15) ∧
    decodeTableWord 32 0xA08516BE = some (.strhReg .ge false true false 5 1 14) ∧
    decodeTableWord 32 0x715364BB = some (.ldrhImm .vc true false false 3 6 4 11) ∧
    decodeTableWord 32 0x4195A9BC = some (.ldrhReg .mi true true false 5 10 12) ∧
    decodeTableWord 32 0x60DC5FD2 = some (.ldrsbImm .vs false true false 12 5 15 2) ∧
    decodeTableWord 32 0x203133DE = some (.ldrsbReg .cs false false true 1 3 14) ∧
    decodeTableWord 32 0x40D5A3F8 = some (.ldrshImm .mi false true false 5 10 3 8) ∧
    decodeTableWord 32 0x801CF3F7 = some (.ldrshReg .hi false false false 12 15 7) ∧
    decodeTableWord 32 0x40EB60FD = some (.halfwordSignedStore .mi false true true true 11 6 0 true 13) ∧
    decodeTableWord 32 0x7147AB0E = some (.mrs .vc true 10) ∧
    decodeTableWord 32 0x112A5808 = some (.msrReg .ne false 10 8) ∧
    decodeTableWord 32 0x4368F1C7 = some (.msrImm .mi true 8 1 199) := by decide

/-- Decode row 7 of the ARM table. -/
theorem test_decode_arm_3 :
    decodeTableWord 32 0x2215189B = some (.andImm .cs true 5 1 8 155) ∧
    decodeTableWord 32 0x70121EAF = some (.andRegImmShift .vc true 2 1 29 .lsr 15) ∧
    decodeTableWord 32 0x70061315 = some (.andRegRegShift .vc false 6 1 3 .lsl 5) ∧
    decodeTableWord 32 0x123C32BF = some (.eorImm .ne true 12 3 2 191) ∧
    decodeTableWord 32 0x9021D902 = some (.eorRegImmShift .ls false 1 13 18 .lsl 2) ∧
    decodeTableWord 32 0x503C915B = some (.eorRegRegShift .pl true 12 9 1 .asr 11) ∧
    decodeTableWord 32 0xA25BD634 = some (.subImm .ge true 11 13 6 52) ∧
    decodeTableWord 32 0xA047BAC6 = some (.subRegImmShift .ge false 7 11 21 .asr 6) ∧
    decodeTableWord 32 0x704E2B95 = some (.subRegRegShift .vc false 14 2 11 .lsl 5) ∧
    decodeTableWord 32 0x726BE540 = some (.rsbImm .vc false 11 14 5 64) ∧
    decodeTableWord 32 0x80615DC4 = some (.rsbRegImmShift .hi false 1 5 27 .asr 4) ∧
    decodeTableWord 32 0x307F5697 = some (.rsbRegRegShift .cc true 15 5 6 .lsl 7) := by decide

/-- Decode row 7 of the ARM table. -/
theorem test_decode_arm_4 :
    decodeTableWord 32 0xB2847EA7 = some (.addImm .lt false 4 7 14 167) ∧
    decodeTableWord 32 0x308B584D = some (.addRegImmShift .cc false 11 5 16 .asr 13) ∧
    decodeTableWord 32 0x7091F335 = some (.addRegRegShift .vc true 1 15 3 .lsr 5) ∧
    decodeTableWord 32 0xC2B56D91 = some (.adcImm .gt true 5 6 13 145) ∧
    decodeTableWord 32 0x10AAEA22 = some (.adcRegImmShift .ne false 10 14 20 .lsr 2) ∧
    decodeTableWord 32 0xE0A56D53 = some (.adcRegRegShift .al false 5 6 13 .asr 3) ∧
    decodeTableWord 32 0x62CFEB0C = some (.sbcImm .vs false 15 14 11 12) ∧
    decodeTableWord 32 0xE0C5A781 = some (.sbcRegImmShift .al false 5 10 15 .lsl 1) ∧
    decodeTableWord 32 0x40D2FE3B = some (.sbcRegRegShift .mi true 2 15 14 .lsr 11) ∧
    decodeTableWord 32 0x32F75D47 = some (.rscImm .cc true 7 5 13 71) ∧
    decodeTableWord 32 0xB0FC8821 = some (.rscRegImmShift .lt true 12 8 16 .lsr 1) ∧
    decodeTableWord 32 0x60E2413C = some (.rscRegRegShift .vs false 2 4 1 .lsr 12) := by decide

/-- Decode row 7 of the ARM table. -/
theorem test_decode_arm_5 :
    decodeTableWord 32 0x831AF788 = some (.tstImm .hi 10 7 136) ∧
    decodeTableWord 32 0x2116CAA1 = some (.tstRegImmShift .cs 6 21 .lsr 1) ∧
    decodeTableWord 32 0x710B0413 = some (.tstRegRegShift .vc 11 0 4 .lsl 3) ∧
    decodeTableWord 32 0xD339F8D7 = some (.teqImm .le 9 8 215) ∧
    decodeTableWord 32 0x1137E2C8 = some (.teqRegImmShift .ne 7 5 .asr 8) ∧
    decodeTableWord 32 0xD131E45A = some (.teqRegRegShift .le 1 14 4 .asr 10) ∧
    decodeTableWord 32 0xB354AA70 = some (.cmpImm .lt 4 10 112) ∧
    decodeTableWord 32 0xC151A4AB = some (.cmpRegImmShift .gt 1 9 .lsr 11) ∧
    decodeTableWord 32 0x41412B59 = some (.cmpRegRegShift .mi 1 2 11 .asr 9) ∧
    decodeTableWord 32 0xB372E89A = some (.cmnImm .lt 2 8 154) ∧
    decodeTableWord 32 0x917F83CE = some (.cmnRegImmShift .ls 15 7 .asr 14) ∧
    decodeTableWord 32 0x816B123C = some (.cmnRegRegShift .hi 11 1 2 .lsr 12) := by decide

/-- Decode row 7 of the ARM table. -/
theorem test_decode_arm_6 :
    decodeTableWord 32 0x539329EC = some (.orrImm .pl true 3 2 9 236) ∧
    decodeTableWord 32 0xB18A868E = some (.orrRegImmShift .lt false 10 8 13 .lsl 14) ∧
    decodeTableWord 32 0x318CD117 = some (.orrRegRegShift .cc false 12 13 1 .lsl 7) ∧
    decodeTableWord 32 0xC3A83609 = some (.movImm .gt false 3 6 9) ∧
    decodeTableWord 32 0xB1AAD4C1 = some (.movRegImmShift .lt false 13 9 .asr 1) ∧
    decodeTableWord 32 0x21ABAB13 = some (.movRegRegShift .cs false 11 10 11 .lsl 3) ∧
    decodeTableWord 32 0x63D83A10 = some (.bicImm .vs true 8 3 10 16) ∧
    decodeTableWord 32 0x61CD2A49 = some (.bicRegImmShift .vs false 13 2 20 .asr 9) ∧
    decodeTableWord 32 0x81D2DA14 = some (.bicRegRegShift .hi true 2 13 10 .lsl 4) ∧
    decodeTableWord 32 0x13E79561 = some (.mvnImm .ne false 9 5 97) ∧
    decodeTableWord 32 0x31E175ED = some (.mvnRegImmShift .cc false 7 11 .ror 13) ∧
    decodeTableWord 32 0x21E6C897 = some (.mvnRegRegShift .cs false 6 12 8 .lsl 7) := by decide

/-- Decode rows 8, 9 of the ARM table. -/
theorem test_decode_arm_7 :
    decodeTableWord 32 0xE70C2D9A = some (.undefinedRow8 .al 549228 10) ∧
    decodeTableWord 32 0x362C73E7 = some (.strt .cc false 12 7 (.reg 7 .ror 7)) ∧
    decodeTableWord 32 0x74369E31 = some (.ldrt .vc false 6 9 (.imm 3633)) ∧
    decodeTableWord 32 0x36E1B1EE = some (.strbt .cc true 1 11 (.reg 3 .ror 14)) ∧
    decodeTableWord 32 0xB672DB00 = some (.ldrbt .lt false 2 13 (.reg 22 .lsl 0)) ∧
    decodeTableWord 32 0x27846A85 = some (.str .cs true true false 4 6 (.reg 21 .lsl 5)) ∧
    decodeTableWord 32 0x151FE42E = some (.ldr .ne true false false 15 14 (.imm 1070)) ∧
    decodeTableWord 32 0x344F150B = some (.strb .cc false false false 15 1 (.imm 1291)) ∧
    decodeTableWord 32 0x445C892D = some (.ldrb .mi false false false 12 8 (.imm 2349)) := by decide

/-- Decode rows 10, 11, 12, 13 of the ARM table. -/
theorem test_decode_arm_8 :
    decodeTableWord 32 0xA86D080C = some (.stmda .ge true true 13 2060) ∧
    decodeTableWord 32 0x5873F3EE = some (.ldmda .pl true true 3 62446) ∧
    decodeTableWord 32 0x38AF33BC = some (.stmia .cc false true 15 13244) ∧
    decodeTableWord 32 0x7894487F = some (.ldmia .vc false false 4 18559) ∧
    decodeTableWord 32 0x296D59CC = some (.stmdb .cs true true 13 22988) ∧
    decodeTableWord 32 0x29152B07 = some (.ldmdb .cs false false 5 11015) ∧
    decodeTableWord 32 0x69C90CC1 = some (.stmib .vs true false 9 3265) ∧
    decodeTableWord 32 0x399FE29E = some (.ldmib .cc false false 15 58014) ∧
    decodeTableWord 32 0x9AA4E65A = some (.b .ls 10806874) ∧
    decodeTableWord 32 0x8B77A777 = some (.bl .hi 7841655) ∧
    decodeTableWord 32 0x2D3DBADC = some (.ldcStcUndefined .cs true false false true true 13 11 10 220) ∧
    decodeTableWord 32 0xCE9D7A48 = some (.cdp .gt 9 13 7 10 2 8) := by decide

/-- Decode rows 14, 15 of the ARM table. -/
theorem test_decode_arm_9 :
    decodeTableWord 32 0x2E2FC5D9 = some (.mcr .cs 1 15 12 5 6 9) ∧
    decodeTableWord 32 0x6E39CBFE = some (.mrc .vs 1 9 12 11 7 14) ∧
    decodeTableWord 32 0xBF223CC9 = some (.swi .lt 2243785) := by decide

/-- Decode rows 1, 2, 3 of the Thumb table. -/
theorem test_decode_thumb_10 :
    decodeTableWord 16 0x1854 = some (.tAddReg 1 2 4) ∧
    decodeTableWord 16 0x1BBC = some (.tSubReg 6 7 4) ∧
    decodeTableWord 16 0x1D16 = some (.tAddImm3 4 2 6) ∧
    decodeTableWord 16 0x1EF5 = some (.tSubImm3 3 6 5) ∧
    decodeTableWord 16 0x071E = some (.tLslImm 28 3 6) ∧
    decodeTableWord 16 0x0C1E = some (.tLsrImm 16 3 6) ∧
    decodeTableWord 16 0x17B5 = some (.tAsrImm 30 6 5) ∧
    decodeTableWord 16 0x25EA = some (.tMovImm 5 234) ∧
    decodeTableWord 16 0x2FCC = some (.tCmpImm 7 204) ∧
    decodeTableWord 16 0x3173 = some (.tAddImm8 1 115) ∧
    decodeTableWord 16 0x3902 = some (.tSubImm8 1 2) := by decide

/-- Decode row 4 of the Thumb table. -/
theorem test_decode_thumb_11 :
    decodeTableWord 16 0x403D = some (.tAnd 7 5) ∧
    decodeTableWord 16 0x407B = some (.tEor 7 3) ∧
    decodeTableWord 16 0x408A = some (.tLslReg 1 2) ∧
    decodeTableWord 16 0x40F7 = some (.tLsrReg 6 7) ∧
    decodeTableWord 16 0x4127 = some (.tAsrReg 4 7) ∧
    decodeTableWord 16 0x4166 = some (.tAdc 4 6) ∧
    decodeTableWord 16 0x41B3 = some (.tSbc 6 3) ∧
    decodeTableWord 16 0x41EC = some (.tRor 5 4) ∧
    decodeTableWord 16 0x4216 = some (.tTst 2 6) ∧
    decodeTableWord 16 0x426A = some (.tNeg 5 2) ∧
    decodeTableWord 16 0x428E = some (.tCmpReg 1 6) ∧
    decodeTableWord 16 0x42DE = some (.tCmn 3 6) := by decide

/-- Decode rows 4, 5, 6 of the Thumb table. -/
theorem test_decode_thumb_12 :
    decodeTableWord 16 0x4326 = some (.tOrr 4 6) ∧
    decodeTableWord 16 0x435D = some (.tMul 3 5) ∧
    decodeTableWord 16 0x439F = some (.tBic 3 7) ∧
    decodeTableWord 16 0x43EE = some (.tMvn 5 6) ∧
    decodeTableWord 16 0x445A = some (.tAddHi false true 3 2) ∧
    decodeTableWord 16 0x45B5 = some (.tCmpHi true false 6 5) ∧
    decodeTableWord 16 0x46FE = some (.tMovHi true true 7 6) ∧
    decodeTableWord 16 0x47D9 = some (.tBx true true 3 1) ∧
    decodeTableWord 16 0x4A54 = some (.tLdrPc 2 84) := by decide

/-- Decode rows 7, 8, 9 of the Thumb table. -/
theorem test_decode_thumb_13 :
    decodeTableWord 16 0x5065 = some (.tStrReg 1 4 5) ∧
    decodeTableWord 16 0x55AC = some (.tStrbReg 6 5 4) ∧
    decodeTableWord 16 0x58E5 = some (.tLdrReg 3 4 5) ∧
    decodeTableWord 16 0x5D17 = some (.tLdrbReg 4 2 7) ∧
    decodeTableWord 16 0x527E = some (.tStrhReg 1 7 6) ∧
    decodeTableWord 16 0x57D5 = some (.tLdsb 7 2 5) ∧
    decodeTableWord 16 0x5B3D = some (.tLdrhReg 4 7 5) ∧
    decodeTableWord 16 0x5E67 = some (.tLdsh 1 4 7) ∧
    decodeTableWord 16 0x62CC = some (.tStrImm 11 1 4) ∧
    decodeTableWord 16 0x68B5 = some (.tLdrImm 2 6 5) ∧
    decodeTableWord 16 0x7279 = some (.tStrbImm 9 7 1) ∧
    decodeTableWord 16 0x7D33 = some (.tLdrbImm 20 6 3) := by decide

/-- Decode rows 10, 11, 12, 13, 14, 15 of the Thumb table. -/
theorem test_decode_thumb_14 :
    decodeTableWord 16 0x85F1 = some (.tStrhImm 23 6 1) ∧
    decodeTableWord 16 0x8C5D = some (.tLdrhImm 17 3 5) ∧
    decodeTableWord 16 0x9362 = some (.tStrSp 3 98) ∧
    decodeTableWord 16 0x9A95 = some (.tLdrSp 2 149) ∧
    decodeTableWord 16 0xA79B = some (.tAddPc 7 155) ∧
    decodeTableWord 16 0xAF62 = some (.tAddSpRd 7 98) ∧
    decodeTableWord 16 0xB00F = some (.tAddSpImm 15) ∧
    decodeTableWord 16 0xB0EB = some (.tSubSpImm 107) ∧
    decodeTableWord 16 0xB494 = some (.tPush false 148) ∧
    decodeTableWord 16 0xBD02 = some (.tPop true 2) ∧
    decodeTableWord 16 0xC3DC = some (.tStmia 3 220) ∧
    decodeTableWord 16 0xC955 = some (.tLdmia 1 85) := by decide

/-- Decode rows 16, 17, 18, 19, 20 of the Thumb table. -/
theorem test_decode_thumb_15 :
    decodeTableWord 16 0xDFEE = some (.tSwi 238) ∧
    decodeTableWord 16 0xDE8D = some (.tUndefinedDe 141) ∧
    decodeTableWord 16 0xD85B = some (.tBCond .hi 91) ∧
    decodeTableWord 16 0xE4AC = some (.tB 1196) ∧
    decodeTableWord 16 0xEB00 = some (.tUndefinedE8 768) ∧
    decodeTableWord 16 0xF79C = some (.tBlFirst 1948) ∧
    decodeTableWord 16 0xFCF6 = some (.tBlSecond 1270) ∧
    decodeTableWord 16 0xB8C2 = some (.tUndefinedB 2242) := by decide

/-! ### One meaning each -/

/-- V-DP-1. -/
theorem test_and :
    regsOf (run 0xE21100FF ((arm |> put [(.r1, 0x12345680)]) |> flags false false true false)) [.r0] =
      some [0x80] ∧
    flagsOf (run 0xE21100FF ((arm |> put [(.r1, 0x12345680)]) |> flags false false true false)) =
      some [false, false, true, false] := by decide

/-- V-DP-2. -/
theorem test_eor :
    regsOf (run 0xE0300000 ((arm |> put [(.r0, 0x1234)]) |> flags false false true true)) [.r0] =
      some [0x0] ∧
    flagsOf (run 0xE0300000 ((arm |> put [(.r0, 0x1234)]) |> flags false false true true)) =
      some [false, true, true, true] := by decide

/-- V-DP-3. -/
theorem test_sub :
    regsOf (run 0xE0510002 (arm |> put [(.r1, 0x80000000), (.r2, 0x1)])) [.r0] = some [0x7FFFFFFF] ∧
    flagsOf (run 0xE0510002 (arm |> put [(.r1, 0x80000000), (.r2, 0x1)])) =
      some [false, false, true, true] := by decide

/-- V-DP-4. -/
theorem test_rsb :
    regsOf (run 0xE2610000 ((arm |> put [(.r1, 0x1)]) |> flags false true false true)) [.r0] =
      some [0xFFFFFFFF] ∧
    flagsOf (run 0xE2610000 ((arm |> put [(.r1, 0x1)]) |> flags false true false true)) =
      some [false, true, false, true] := by decide

/-- V-DP-5. -/
theorem test_add :
    regsOf (run 0xE0910002 (arm |> put [(.r1, 0xFFFFFFFF), (.r2, 0x1)])) [.r0] = some [0x0] ∧
    flagsOf (run 0xE0910002 (arm |> put [(.r1, 0xFFFFFFFF), (.r2, 0x1)])) =
      some [false, true, true, false] := by decide

/-- V-DP-6. -/
theorem test_adc :
    regsOf (run 0xE0B10002 ((arm |> put [(.r1, 0x0), (.r2, 0xFFFFFFFF)]) |> flags false false true false)) [.r0] =
      some [0x0] ∧
    flagsOf (run 0xE0B10002 ((arm |> put [(.r1, 0x0), (.r2, 0xFFFFFFFF)]) |> flags false false true false)) =
      some [false, true, true, false] := by decide

/-- V-DP-7. -/
theorem test_sbc :
    regsOf (run 0xE0D10002 (arm |> put [(.r1, 0x5), (.r2, 0x5)])) [.r0] = some [0xFFFFFFFF] ∧
    flagsOf (run 0xE0D10002 (arm |> put [(.r1, 0x5), (.r2, 0x5)])) = some [true, false, false, false] := by decide

/-- V-DP-8. -/
theorem test_rsc :
    regsOf (run 0xE2F10000 (arm |> put [(.r1, 0x0)])) [.r0] = some [0xFFFFFFFF] ∧
    flagsOf (run 0xE2F10000 (arm |> put [(.r1, 0x0)])) = some [true, false, false, false] := by decide

/-- V-DP-9. -/
theorem test_tst :
    regsOf (run 0xE3100102 (arm |> put [(.r0, 0x7FFFFFFF)])) [.r0] = some [0x7FFFFFFF] ∧
    flagsOf (run 0xE3100102 (arm |> put [(.r0, 0x7FFFFFFF)])) = some [false, true, true, false] := by decide

/-- V-DP-10. -/
theorem test_teq :
    regsOf (run 0xE1300001 ((arm |> put [(.r0, 0x1234), (.r1, 0x1234)]) |> flags true false true true)) [.r0] =
      some [0x1234] ∧
    flagsOf (run 0xE1300001 ((arm |> put [(.r0, 0x1234), (.r1, 0x1234)]) |> flags true false true true)) =
      some [false, true, true, true] := by decide

/-- V-DP-11. -/
theorem test_cmp :
    regsOf (run 0xE3500001 ((arm |> put [(.r0, 0x0)]) |> flags false true true true)) [.r0] =
      some [0x0] ∧
    flagsOf (run 0xE3500001 ((arm |> put [(.r0, 0x0)]) |> flags false true true true)) =
      some [true, false, false, false] := by decide

/-- V-DP-12. -/
theorem test_cmn :
    regsOf (run 0xE3700001 (arm |> put [(.r0, 0xFFFFFFFF)])) [.r0] = some [0xFFFFFFFF] ∧
    flagsOf (run 0xE3700001 (arm |> put [(.r0, 0xFFFFFFFF)])) = some [false, true, true, false] := by decide

/-- V-DP-13. -/
theorem test_orr :
    regsOf (run 0xE1800201 ((arm |> put [(.r0, 0xF), (.r1, 0xF)]) |> flags true true true true)) [.r0] =
      some [0xFF] ∧
    flagsOf (run 0xE1800201 ((arm |> put [(.r0, 0xF), (.r1, 0xF)]) |> flags true true true true)) =
      some [true, true, true, true] := by decide

/-- V-DP-14. -/
theorem test_mov :
    regsOf (run 0xE1A0000F arm) [.r0] = some [0x8000008] := by decide

/-- V-DP-15. -/
theorem test_bic :
    regsOf (run 0xE3C000FF (arm |> put [(.r0, 0x1234)])) [.r0] = some [0x1200] := by decide

/-- V-DP-16. -/
theorem test_mvn :
    regsOf (run 0xE3F00000 arm) [.r0] = some [0xFFFFFFFF] ∧
    flagsOf (run 0xE3F00000 arm) = some [true, false, false, false] := by decide

/-- V-DP-17. -/
theorem test_mov_ror_reg :
    regsOf (run 0xE1A00271 ((arm |> put [(.r1, 0x80000001), (.r2, 0x20)]) |> flags false true false true)) [.r0] =
      some [0x80000001] ∧
    flagsOf (run 0xE1A00271 ((arm |> put [(.r1, 0x80000001), (.r2, 0x20)]) |> flags false true false true)) =
      some [false, true, false, true] := by decide

/-- V-DP-18. -/
theorem test_mov_lsr_reg :
    regsOf (run 0xE1B00231 ((arm |> put [(.r1, 0x80000000), (.r2, 0x21)]) |> flags false false true false)) [.r0] =
      some [0x0] ∧
    flagsOf (run 0xE1B00231 ((arm |> put [(.r1, 0x80000000), (.r2, 0x21)]) |> flags false false true false)) =
      some [false, true, false, false] := by decide

/-- V-DP-19. -/
theorem test_add_reg_shift_r15 :
    faultOf (run 0xE08F0211 arm) = some (.unpredictable .dpRegShiftR15) := by decide

/-- V-DP-20. -/
theorem test_mov_pc :
    regsOf (run 0xE1A0F000 (arm |> put [(.r0, 0x8000103)])) [.pc] = some [0x8000100] := by decide

/-- V-DP-22. -/
theorem test_movs_pc_no_spsr :
    faultOf (run 0xE1B0F00E arm) = some (.noSpsr) := by decide

/-- V-DP-23. -/
theorem test_tst_without_s :
    flagsOf (run 0xE3000000 ((arm |> put [(.r0, 0x5)]) |> flags true false true true)) =
      some [false, true, true, true] := by decide

/-- V-DP-21: the saved status word comes back. -/
theorem test_movs_pc :
    (next? (run 0xE1B0F00E (arm |> put [(.r14svc, 0x08000020)] |> inMode 0x13 |> setSpsr (Psr.ofWord 0x6000001F)))).map
      (fun u => (u.cpsr.toWord, u.regs.pc)) = some (0x6000001F, 0x08000020) := by decide

/-- V-DP-24: the restored T bit aligns the target. -/
theorem test_subs_pc_thumb :
    (next? (run 0xE25EF004 (arm |> put [(.r14irq, 0x08000016)] |> inMode 0x12 |> setSpsr (Psr.ofWord 0x0000003F)))).map
      (fun u => (u.cpsr.toWord, u.regs.pc)) = some (0x3F, 0x08000012) := by decide

/-- V-SDT-1. -/
theorem test_ldr_pre :
    regsOf (run 0xE5910004 ((arm |> sdtWords) |> put [(.r1, 0x3000100)])) [.r0, .r1] =
      some [0x11223344, 0x3000100] := by decide

/-- V-SDT-2. -/
theorem test_ldr_post :
    regsOf (run 0xE4910004 ((arm |> sdtWords) |> put [(.r1, 0x3000100)])) [.r0, .r1] =
      some [0xAABBCCDD, 0x3000104] := by decide

/-- V-SDT-4. -/
theorem test_ldr_rotated :
    regsOf (run 0xE5910005 ((arm |> sdtWords) |> put [(.r1, 0x3000100)])) [.r0] = some [0x44112233] := by decide

/-- V-SDT-6. -/
theorem test_ldrb :
    regsOf (run 0xE5D10007 ((arm |> sdtWords) |> put [(.r1, 0x3000100)])) [.r0] = some [0x11] := by decide

/-- V-SDT-7. -/
theorem test_ldrb_down :
    regsOf (run 0xE7510002 ((arm |> sdtWords) |> put [(.r1, 0x3000100), (.r2, 0xFFFFFFFC)])) [.r0] =
      some [0x44] := by decide

/-- V-SDT-8. -/
theorem test_str_scaled :
    bytesOf (run 0xE7810102 (arm |> put [(.r0, 0xCAFEBABE), (.r1, 0x3000100), (.r2, 0x1)])) 0x03000104 4 =
      some [0xBE, 0xBA, 0xFE, 0xCA] := by decide

/-- V-SDT-9, MISALIGNED_STORE_ROTATE = true. -/
theorem test_str_rotated :
    bytesOf (run 0xE5810001 (arm |> put [(.r0, 0xDDAABBCC), (.r1, 0x3000100)])) 0x03000100 4 =
      some [0xDD, 0xCC, 0xBB, 0xAA] := by decide

/-- V-SDT-10. -/
theorem test_strb_post :
    regsOf (run 0xE4C10001 (arm |> put [(.r0, 0x1234), (.r1, 0x3000100)])) [.r1] = some [0x3000101] ∧
    bytesOf (run 0xE4C10001 (arm |> put [(.r0, 0x1234), (.r1, 0x3000100)])) 0x03000100 1 = some [0x34] := by decide

/-- V-SDT-11. -/
theorem test_str_pc :
    bytesOf (run 0xE581F000 (arm |> put [(.r1, 0x3000100)])) 0x03000100 4 =
      some [0x08, 0x00, 0x00, 0x08] := by decide

/-- V-SDT-12. -/
theorem test_ldr_to_pc :
    regsOf (run 0xE591F000 ((arm |> store [(0x03000100, 0x08000100)]) |> put [(.r1, 0x3000100)])) [.pc] =
      some [0x8000100] := by decide

/-- V-SDT-13. -/
theorem test_ldr_to_pc_misaligned :
    faultOf (run 0xE591F001 (arm |> put [(.r1, 0x3000100)])) = some (.unpredictable .ldrPcMisaligned) := by decide

/-- V-SDT-14. -/
theorem test_ldr_base_is_rd :
    faultOf (run 0xE4911004 (arm |> put [(.r1, 0x3000100)])) = some (.unpredictable .sdtWritebackRnIsRd) := by decide

/-- V-SDT-16. -/
theorem test_ldrt :
    regsOf (run 0xE4B10004 ((arm |> sdtWords) |> put [(.r1, 0x3000100)])) [.r0, .r1] =
      some [0xAABBCCDD, 0x3000104] := by decide

/-- R517. -/
theorem test_ldrbt :
    regsOf (run 0xE4F10001 ((arm |> sdtWords) |> put [(.r1, 0x3000100)])) [.r0, .r1] =
      some [0xDD, 0x3000101] := by decide

/-- R518, the store of R512 post-indexed. -/
theorem test_strt :
    regsOf (run 0xE4A10004 (arm |> put [(.r0, 0x1020304), (.r1, 0x3000100)])) [.r1] = some [0x3000104] ∧
    bytesOf (run 0xE4A10004 (arm |> put [(.r0, 0x1020304), (.r1, 0x3000100)])) 0x03000100 4 =
      some [0x04, 0x03, 0x02, 0x01] := by decide

/-- R519, the store of R515 post-indexed. -/
theorem test_strbt :
    regsOf (run 0xE4E10001 (arm |> put [(.r0, 0x1234), (.r1, 0x3000100)])) [.r1] = some [0x3000101] ∧
    bytesOf (run 0xE4E10001 (arm |> put [(.r0, 0x1234), (.r1, 0x3000100)])) 0x03000100 2 =
      some [0x34, 0x00] := by decide

/-- V-BR-1. -/
theorem test_b :
    regsOf (run 0xEA000002 arm) [.pc] = some [0x8000010] := by decide

/-- V-BR-3. -/
theorem test_bl :
    regsOf (run 0xEB000000 arm) [.r14usr, .pc] = some [0x8000004, 0x8000008] := by decide

/-- V-BR-4. -/
theorem test_b_wraps :
    regsOf (run 0xEAFFFFFD (arm |> put [(.pc, 0x8)])) [.pc] = some [0xFFFFFFFC] := by decide

/-- V-BR-5. -/
theorem test_bx_thumb :
    (next? (run 0xE12FFF10 (arm |> put [(.r0, 0x08000101)]))).map (fun u => (u.cpsr.t, u.regs.pc, u.flushRequested)) =
      some (true, 0x08000100, true) := by decide

/-- V-BR-7. -/
theorem test_bx_misaligned :
    faultOf (run 0xE12FFF10 (arm |> put [(.r0, 0x8000102)])) = some (.misalignedBxTarget) := by decide

/-- V-PSR-1. -/
theorem test_mrs_cpsr :
    regsOf (run 0xE10F0000 State.reset) [.r0] = some [0xD3] := by decide

/-- V-PSR-2: the dummy word in System mode. -/
theorem test_mrs_spsr :
    regsOf (run 0xE14F0000 (arm |> setSpsr (Psr.ofWord 0x10))) [.r0] = some [0x10] := by decide

/-- V-PSR-4. -/
theorem test_msr_cpsr :
    cpsrOf (run 0xE129F000 (State.reset |> put [(.r0, 0x600000D2)])) = some 0x600000D2 := by decide

/-- V-PSR-5. -/
theorem test_msr_cpsr_imm :
    cpsrOf (run 0xE328F4F0 State.reset) = some 0xF00000D3 := by decide

/-- V-PSR-6: from User mode only the flags byte. -/
theorem test_msr_user :
    cpsrOf (run 0xE129F000 (arm |> put [(.r0, 0x800000D3)] |> inMode 0x10)) = some 0x80000010 := by decide

/-- V-PSR-7. -/
theorem test_msr_t_bit :
    faultOf (run 0xE121F000 (State.reset |> put [(.r0, 0xF3)])) = some .tBitWrite := by decide

/-- V-PSR-8. -/
theorem test_msr_spsr :
    (next? (run 0xE16FF000 (State.reset |> put [(.r0, 0x3F)]))).map (fun u => (u.spsr.svc.toWord, u.cpsr.toWord)) =
      some (0x3F, 0xD3) := by decide

/-- V-MUL-1. -/
theorem test_mul :
    regsOf (run 0xE0000291 ((arm |> put [(.r1, 0x12345678), (.r2, 0x9ABCDEF0)]) |> flags true true true true)) [.r0] =
      some [0x242D2080] ∧
    flagsOf (run 0xE0000291 ((arm |> put [(.r1, 0x12345678), (.r2, 0x9ABCDEF0)]) |> flags true true true true)) =
      some [true, true, true, true] := by decide

/-- V-MUL-3: N and Z; C is a draw. -/
theorem test_muls :
    regsOf (run 0xE0100291 (arm |> put [(.r1, 0x80000000), (.r2, 0x2)])) [.r0] = some [0x0] ∧
    (flagsOf (run 0xE0100291 (arm |> put [(.r1, 0x80000000), (.r2, 0x2)]))).map (List.take 2) =
      some [false, true] := by decide

/-- V-MUL-4. -/
theorem test_mla :
    regsOf (run 0xE0203291 (arm |> put [(.r1, 0x12345678), (.r2, 0x9ABCDEF0), (.r3, 0x5)])) [.r0] =
      some [0x242D2085] := by decide

/-- V-MUL-6. -/
theorem test_umull :
    regsOf (run 0xE0810392 (arm |> put [(.r2, 0x12345678), (.r3, 0x9ABCDEF0)])) [.r1, .r0] =
      some [0xB00EA4E, 0x242D2080] := by decide

/-- V-MUL-7. -/
theorem test_umlal :
    regsOf (run 0xE0A10392 (arm |> put [(.r0, 0xFFFFFFFF), (.r1, 0x1), (.r2, 0xFFFFFFFF), (.r3, 0x2)])) [.r1, .r0] =
      some [0x3, 0xFFFFFFFD] := by decide

/-- V-MUL-8. -/
theorem test_smull :
    regsOf (run 0xE0C10392 (arm |> put [(.r2, 0x12345678), (.r3, 0x9ABCDEF0)])) [.r1, .r0] =
      some [0xF8CC93D6, 0x242D2080] := by decide

/-- V-MUL-9: N and Z of the 64-bit result; C and V are draws. -/
theorem test_smulls :
    regsOf (run 0xE0D10392 (arm |> put [(.r2, 0xFFFFFFFF), (.r3, 0x2)])) [.r1, .r0] =
      some [0xFFFFFFFF, 0xFFFFFFFE] ∧
    (flagsOf (run 0xE0D10392 (arm |> put [(.r2, 0xFFFFFFFF), (.r3, 0x2)]))).map (List.take 2) =
      some [true, false] := by decide

/-- V-MUL-11. -/
theorem test_smlal :
    regsOf (run 0xE0E10392 (arm |> put [(.r0, 0xFFFFFFFF), (.r1, 0xFFFFFFFF), (.r2, 0xFFFFFFFF), (.r3, 0xFFFFFFFF)])) [.r1, .r0] =
      some [0x0, 0x0] := by decide

/-- V-MUL-12. -/
theorem test_mul_rd_is_rm :
    faultOf (run 0xE0000190 arm) = some (.unpredictable .mulRdIsRm) := by decide

/-- V-MUL-13. -/
theorem test_umull_clash :
    faultOf (run 0xE0800392 arm) = some (.unpredictable .mullRegisterClash) := by decide

/-- V-SWP-2. -/
theorem test_swp :
    regsOf (run 0xE1020090 ((arm |> store [(0x03000000, 0x00000007)]) |> put [(.r0, 0x5), (.r2, 0x3000000)])) [.r0] =
      some [0x7] ∧
    bytesOf (run 0xE1020090 ((arm |> store [(0x03000000, 0x00000007)]) |> put [(.r0, 0x5), (.r2, 0x3000000)])) 0x03000000 4 =
      some [0x05, 0x00, 0x00, 0x00] := by decide

/-- V-SWP-3. -/
theorem test_swpb :
    regsOf (run 0xE1420091 ((arm |> store [(0x03000000, 0xFFFFFFAB)]) |> put [(.r1, 0x12345678), (.r2, 0x3000000)])) [.r0] =
      some [0xAB] ∧
    bytesOf (run 0xE1420091 ((arm |> store [(0x03000000, 0xFFFFFFAB)]) |> put [(.r1, 0x12345678), (.r2, 0x3000000)])) 0x03000000 2 =
      some [0x78, 0xFF] := by decide

/-- V-HW-1. -/
theorem test_ldrh_imm :
    regsOf (run 0xE1D100B2 ((arm |> halfBytes) |> put [(.r1, 0x3000100)])) [.r0] = some [0x1234] := by decide

/-- V-HW-2. -/
theorem test_ldrh_imm_odd :
    regsOf (run 0xE1D100B1 ((arm |> halfBytes) |> put [(.r1, 0x3000100)])) [.r0] = some [0x800000FF] := by decide

/-- R713, register offset: the halfword of V-HW-1. -/
theorem test_ldrh_reg :
    regsOf (run 0xE19100B2 ((arm |> halfBytes) |> put [(.r1, 0x3000100), (.r2, 0x2)])) [.r0] =
      some [0x1234] := by decide

/-- V-HW-3. -/
theorem test_ldrsb_reg :
    regsOf (run 0xE19100D2 ((arm |> halfBytes) |> put [(.r1, 0x3000100), (.r2, 0x0)])) [.r0] =
      some [0xFFFFFF80] := by decide

/-- V-HW-4. -/
theorem test_ldrsb_imm_post :
    regsOf (run 0xE0D100D1 ((arm |> halfBytes) |> put [(.r1, 0x3000100)])) [.r0, .r1] =
      some [0xFFFFFF80, 0x3000101] := by decide

/-- V-HW-6. -/
theorem test_ldrsh_imm_odd :
    regsOf (run 0xE1D100F1 ((arm |> halfBytes) |> put [(.r1, 0x3000100)])) [.r0] = some [0xFFFFFFFF] := by decide

/-- V-HW-7. -/
theorem test_ldrsh_imm_down :
    regsOf (run 0xE17100F2 ((arm |> halfBytes) |> put [(.r1, 0x3000104)])) [.r0, .r1] =
      some [0x1234, 0x3000102] := by decide

/-- R716, register offset: the halfword of V-HW-5. -/
theorem test_ldrsh_reg :
    regsOf (run 0xE19100F2 ((arm |> halfBytes) |> put [(.r1, 0x3000100), (.r2, 0x0)])) [.r0] =
      some [0xFFFFFF80] := by decide

/-- V-HW-9. -/
theorem test_strh_imm_odd :
    bytesOf (run 0xE1C100B5 (arm |> put [(.r0, 0xABCD), (.r1, 0x3000100)])) 0x03000104 3 =
      some [0xCD, 0xAB, 0x00] := by decide

/-- R714, register offset: the bytes of V-HW-8. -/
theorem test_strh_reg :
    bytesOf (run 0xE18100B2 (arm |> put [(.r0, 0x1234ABCD), (.r1, 0x3000100), (.r2, 0x4)])) 0x03000104 3 =
      some [0xCD, 0xAB, 0x00] := by decide

/-- V-HW-10. -/
theorem test_ldrh_base_is_rd :
    faultOf (run 0xE0D110B2 (arm |> put [(.r1, 0x3000100)])) =
      some (.unpredictable .halfwordWritebackRnIsRd) := by decide

/-- R717: the signed stores fault. -/
theorem test_signed_store :
    faultOf (run 0xE1C100D0 arm) = some (.unpredictable .signedStore) := by decide

/-- V-BLK-1. -/
theorem test_ldmia :
    regsOf (run 0xE8B00006 ((arm |> blockWords) |> put [(.r0, 0x3000100), (.r1, 0xA), (.r2, 0xB), (.r3, 0xC)])) [.r1, .r2, .r0] =
      some [0x33333333, 0x44444444, 0x3000108] := by decide

/-- V-BLK-2. -/
theorem test_ldmib :
    regsOf (run 0xE9900006 ((arm |> blockWords) |> put [(.r0, 0x3000100), (.r1, 0xA), (.r2, 0xB), (.r3, 0xC)])) [.r1, .r2, .r0] =
      some [0x44444444, 0x55555555, 0x3000100] := by decide

/-- V-BLK-3. -/
theorem test_ldmda :
    regsOf (run 0xE8300006 ((arm |> blockWords) |> put [(.r0, 0x3000100), (.r1, 0xA), (.r2, 0xB), (.r3, 0xC)])) [.r1, .r2, .r0] =
      some [0x22222222, 0x33333333, 0x30000F8] := by decide

/-- V-BLK-4. -/
theorem test_ldmdb :
    regsOf (run 0xE9100006 ((arm |> blockWords) |> put [(.r0, 0x3000100), (.r1, 0xA), (.r2, 0xB), (.r3, 0xC)])) [.r1, .r2, .r0] =
      some [0x11111111, 0x22222222, 0x3000100] := by decide

/-- V-BLK-5. -/
theorem test_stmia :
    regsOf (run 0xE880000E (arm |> put [(.r0, 0x3000100), (.r1, 0xA), (.r2, 0xB), (.r3, 0xC)])) [.r0] =
      some [0x3000100] ∧
    bytesOf (run 0xE880000E (arm |> put [(.r0, 0x3000100), (.r1, 0xA), (.r2, 0xB), (.r3, 0xC)])) 0x03000100 9 =
      some [0x0A, 0x00, 0x00, 0x00, 0x0B, 0x00, 0x00, 0x00, 0x0C] := by decide

/-- V-BLK-6. -/
theorem test_stmib :
    regsOf (run 0xE9A00006 (arm |> put [(.r0, 0x3000100), (.r1, 0xA), (.r2, 0xB), (.r3, 0xC)])) [.r0] =
      some [0x3000108] ∧
    bytesOf (run 0xE9A00006 (arm |> put [(.r0, 0x3000100), (.r1, 0xA), (.r2, 0xB), (.r3, 0xC)])) 0x03000104 5 =
      some [0x0A, 0x00, 0x00, 0x00, 0x0B] := by decide

/-- V-BLK-7. -/
theorem test_stmda :
    bytesOf (run 0xE8000006 (arm |> put [(.r0, 0x3000100), (.r1, 0xA), (.r2, 0xB), (.r3, 0xC)])) 0x030000FC 5 =
      some [0x0A, 0x00, 0x00, 0x00, 0x0B] := by decide

/-- V-BLK-8. -/
theorem test_stmdb :
    regsOf (run 0xE9200006 (arm |> put [(.r0, 0x3000100), (.r1, 0xA), (.r2, 0xB), (.r3, 0xC)])) [.r0] =
      some [0x30000F8] ∧
    bytesOf (run 0xE9200006 (arm |> put [(.r0, 0x3000100), (.r1, 0xA), (.r2, 0xB), (.r3, 0xC)])) 0x030000F8 5 =
      some [0x0A, 0x00, 0x00, 0x00, 0x0B] := by decide

/-- V-BLK-9. -/
theorem test_stmia_base_first :
    regsOf (run 0xE8A00003 (arm |> put [(.r0, 0x3000100), (.r1, 0xA), (.r2, 0xB), (.r3, 0xC)])) [.r0] =
      some [0x3000108] ∧
    bytesOf (run 0xE8A00003 (arm |> put [(.r0, 0x3000100), (.r1, 0xA), (.r2, 0xB), (.r3, 0xC)])) 0x03000100 5 =
      some [0x00, 0x01, 0x00, 0x03, 0x0A] := by decide

/-- V-BLK-10. -/
theorem test_stmia_base_later :
    faultOf (run 0xE8A10003 (arm |> put [(.r0, 0x3000100), (.r1, 0xA), (.r2, 0xB), (.r3, 0xC)])) =
      some (.unpredictable .stmWritebackBaseNotFirst) := by decide

/-- V-BLK-11. -/
theorem test_ldmia_base_listed :
    faultOf (run 0xE8B00003 (arm |> put [(.r0, 0x3000100), (.r1, 0xA), (.r2, 0xB), (.r3, 0xC)])) =
      some (.unpredictable .ldmWritebackBaseInList) := by decide

/-- V-BLK-13. -/
theorem test_ldmia_empty :
    faultOf (run 0xE8900000 (arm |> put [(.r0, 0x3000100), (.r1, 0xA), (.r2, 0xB), (.r3, 0xC)])) =
      some (.unpredictable .emptyRegisterList) := by decide

/-- V-BLK-16. -/
theorem test_ldmia_pc :
    regsOf (run 0xE8908002 ((arm |> blockWords) |> put [(.r0, 0x3000100), (.r1, 0xA), (.r2, 0xB), (.r3, 0xC)])) [.r1, .pc] =
      some [0x33333333, 0x44444444] := by decide

/-- V-BLK-17. -/
theorem test_ldmia_restores :
    (next? (run 0xE8D08000 (arm |> store [(0x03000100, 0x33333333)] |> put [(.r0, 0x03000100)] |> inMode 0x13 |>
      setSpsr (Psr.ofWord 0x30)))).map (fun u => (u.cpsr.toWord, u.regs.pc)) = some (0x30, 0x33333332) := by decide

/-- V-BLK-18. -/
theorem test_stm_user_bank :
    bytesOf (run 0xE8C06000 ((arm |> put [(.r0, 0x3000100), (.r13usr, 0x3007F00), (.r14usr, 0x8000000), (.r13irq, 0x1), (.r14irq, 0x2)]) |> inMode 0x12)) 0x03000100 8 =
      some [0x00, 0x7F, 0x00, 0x03, 0x00, 0x00, 0x00, 0x08] := by decide

/-- V-BLK-19. -/
theorem test_stm_user_bank_writeback :
    faultOf (run 0xE8E02000 ((arm |> put [(.r0, 0x3000100), (.r1, 0xA), (.r2, 0xB), (.r3, 0xC)]) |> inMode 0x12)) =
      some (.unpredictable .userBankWriteback) := by decide

/-- V-CP-1, under Trap. -/
theorem test_cdp :
    entry (run 0xEE012F03 (arm |> policy .trap)) .r14und = some (0x08000004, 0x1F, 0x9B, 0x04) := by decide

/-- V-CP-2, under Trap. -/
theorem test_mrc :
    entry (run 0xEE110F10 (arm |> policy .trap)) .r14und = some (0x08000004, 0x1F, 0x9B, 0x04) := by decide

/-- V-CP-3, under Trap. -/
theorem test_mcr :
    entry (run 0xEE010F10 (arm |> policy .trap)) .r14und = some (0x08000004, 0x1F, 0x9B, 0x04) := by decide

/-- V-CP-4, under Trap. -/
theorem test_ldc_stc :
    entry (run 0xED801E00 (arm |> policy .trap)) .r14und = some (0x08000004, 0x1F, 0x9B, 0x04) := by decide

/-- V-CP-5, under Trap. -/
theorem test_undefined_row8 :
    entry (run 0xE6000010 (arm |> policy .trap)) .r14und = some (0x08000004, 0x1F, 0x9B, 0x04) := by decide

/-- V-CP-1, under Noop and Fault. -/
theorem test_undefined_policies :
    next? (run 0xEE012F03 arm) = some arm ∧ faultOf (run 0xEE012F03 (arm |> policy .fault)) =
      some .undefinedInstruction := by decide

/-- V-CP-6, under Trap. -/
theorem test_swi :
    entry (run 0xEF000010 (arm |> policy .trap)) .r14svc = some (0x08000004, 0x1F, 0x93, 0x08) := by decide

/-- V-CP-7: the condition fails. -/
theorem test_swi_condition :
    next? (run 0x0F000000 (arm |> policy .trap)) = some (arm |> policy .trap) := by decide

/-- V-TH-1. -/
theorem test_thumb_lsl_imm :
    regsOf (runThumb 0x0088 (thumb |> put [(.r1, 0x3000100), (.r2, 0x4)])) [.r0] = some [0xC000400] ∧
    flagsOf (runThumb 0x0088 (thumb |> put [(.r1, 0x3000100), (.r2, 0x4)])) =
      some [false, false, false, false] := by decide

/-- V-TH-2. -/
theorem test_thumb_lsl_zero :
    regsOf (runThumb 0x0008 ((thumb |> put [(.r1, 0x3000100), (.r2, 0x4)]) |> flags false false true false)) [.r0] =
      some [0x3000100] ∧
    flagsOf (runThumb 0x0008 ((thumb |> put [(.r1, 0x3000100), (.r2, 0x4)]) |> flags false false true false)) =
      some [false, false, true, false] := by decide

/-- V-TH-3. -/
theorem test_thumb_lsr_imm :
    regsOf (runThumb 0x0808 (thumb |> put [(.r1, 0x3000100), (.r2, 0x4)])) [.r0] = some [0x0] ∧
    flagsOf (runThumb 0x0808 (thumb |> put [(.r1, 0x3000100), (.r2, 0x4)])) =
      some [false, true, false, false] := by decide

/-- V-TH-4. -/
theorem test_thumb_asr_imm :
    regsOf (runThumb 0x1048 (thumb |> put [(.r1, 0x80000001)])) [.r0] = some [0xC0000000] ∧
    flagsOf (runThumb 0x1048 (thumb |> put [(.r1, 0x80000001)])) = some [true, false, true, false] := by decide

/-- V-TH-5. -/
theorem test_thumb_add_reg :
    regsOf (runThumb 0x1888 (thumb |> put [(.r1, 0x3000100), (.r2, 0x4)])) [.r0] = some [0x3000104] ∧
    flagsOf (runThumb 0x1888 (thumb |> put [(.r1, 0x3000100), (.r2, 0x4)])) =
      some [false, false, false, false] := by decide

/-- V-TH-6. -/
theorem test_thumb_sub_reg :
    regsOf (runThumb 0x1A88 (thumb |> put [(.r1, 0x3000100), (.r2, 0x4)])) [.r0] = some [0x30000FC] ∧
    flagsOf (runThumb 0x1A88 (thumb |> put [(.r1, 0x3000100), (.r2, 0x4)])) =
      some [false, false, true, false] := by decide

/-- R812. -/
theorem test_thumb_add_imm3 :
    regsOf (runThumb 0x1C48 (thumb |> put [(.r1, 0x3000100), (.r2, 0x4)])) [.r0] = some [0x3000101] ∧
    flagsOf (runThumb 0x1C48 (thumb |> put [(.r1, 0x3000100), (.r2, 0x4)])) =
      some [false, false, false, false] := by decide

/-- V-TH-7. -/
theorem test_thumb_sub_imm3 :
    regsOf (runThumb 0x1E48 (thumb |> put [(.r1, 0x3000100), (.r2, 0x4)])) [.r0] = some [0x30000FF] ∧
    flagsOf (runThumb 0x1E48 (thumb |> put [(.r1, 0x3000100), (.r2, 0x4)])) =
      some [false, false, true, false] := by decide

/-- V-TH-8. -/
theorem test_thumb_mov_imm :
    regsOf (runThumb 0x2080 ((thumb |> put [(.r1, 0x3000100), (.r2, 0x4)]) |> flags true true true true)) [.r0] =
      some [0x80] ∧
    flagsOf (runThumb 0x2080 ((thumb |> put [(.r1, 0x3000100), (.r2, 0x4)]) |> flags true true true true)) =
      some [false, false, true, true] := by decide

/-- R816. -/
theorem test_thumb_cmp_imm :
    regsOf (runThumb 0x2801 (thumb |> put [(.r0, 0x1)])) [.r0] = some [0x1] ∧
    flagsOf (runThumb 0x2801 (thumb |> put [(.r0, 0x1)])) = some [false, true, true, false] := by decide

/-- V-TH-9. -/
theorem test_thumb_add_imm8 :
    regsOf (runThumb 0x30FF (thumb |> put [(.r0, 0xFFFFFF01)])) [.r0] = some [0x0] ∧
    flagsOf (runThumb 0x30FF (thumb |> put [(.r0, 0xFFFFFF01)])) = some [false, true, true, false] := by decide

/-- V-TH-10. -/
theorem test_thumb_sub_imm8 :
    regsOf (runThumb 0x3801 (thumb |> put [(.r0, 0x0)])) [.r0] = some [0xFFFFFFFF] ∧
    flagsOf (runThumb 0x3801 (thumb |> put [(.r0, 0x0)])) = some [true, false, false, false] := by decide

/-- R820. -/
theorem test_thumb_and :
    regsOf (runThumb 0x4008 ((thumb |> put [(.r0, 0xF0), (.r1, 0x3C)]) |> flags true true true true)) [.r0] =
      some [0x30] ∧
    flagsOf (runThumb 0x4008 ((thumb |> put [(.r0, 0xF0), (.r1, 0x3C)]) |> flags true true true true)) =
      some [false, false, true, true] := by decide

/-- R821. -/
theorem test_thumb_eor :
    regsOf (runThumb 0x4048 (thumb |> put [(.r0, 0x5), (.r1, 0x5)])) [.r0] = some [0x0] ∧
    flagsOf (runThumb 0x4048 (thumb |> put [(.r0, 0x5), (.r1, 0x5)])) = some [false, true, false, false] := by decide

/-- V-TH-11. -/
theorem test_thumb_lsl_reg :
    regsOf (runThumb 0x4088 (thumb |> put [(.r0, 0x1), (.r1, 0x20)])) [.r0] = some [0x0] ∧
    flagsOf (runThumb 0x4088 (thumb |> put [(.r0, 0x1), (.r1, 0x20)])) = some [false, true, true, false] := by decide

/-- R823. -/
theorem test_thumb_lsr_reg :
    regsOf (runThumb 0x40C8 (thumb |> put [(.r0, 0x80000000), (.r1, 0x1F)])) [.r0] = some [0x1] ∧
    flagsOf (runThumb 0x40C8 (thumb |> put [(.r0, 0x80000000), (.r1, 0x1F)])) =
      some [false, false, false, false] := by decide

/-- V-TH-12. -/
theorem test_thumb_asr_reg :
    regsOf (runThumb 0x4108 (thumb |> put [(.r0, 0x80000000), (.r1, 0x28)])) [.r0] = some [0xFFFFFFFF] ∧
    flagsOf (runThumb 0x4108 (thumb |> put [(.r0, 0x80000000), (.r1, 0x28)])) =
      some [true, false, true, false] := by decide

/-- V-TH-13. -/
theorem test_thumb_adc :
    regsOf (runThumb 0x4148 ((thumb |> put [(.r0, 0xFFFFFFFF), (.r1, 0x0)]) |> flags false false true false)) [.r0] =
      some [0x0] ∧
    flagsOf (runThumb 0x4148 ((thumb |> put [(.r0, 0xFFFFFFFF), (.r1, 0x0)]) |> flags false false true false)) =
      some [false, true, true, false] := by decide

/-- R826. -/
theorem test_thumb_sbc :
    regsOf (runThumb 0x4188 (thumb |> put [(.r0, 0x5), (.r1, 0x3)])) [.r0] = some [0x1] ∧
    flagsOf (runThumb 0x4188 (thumb |> put [(.r0, 0x5), (.r1, 0x3)])) = some [false, false, true, false] := by decide

/-- V-TH-14. -/
theorem test_thumb_ror :
    regsOf (runThumb 0x41C8 (thumb |> put [(.r0, 0x1), (.r1, 0x1)])) [.r0] = some [0x80000000] ∧
    flagsOf (runThumb 0x41C8 (thumb |> put [(.r0, 0x1), (.r1, 0x1)])) = some [true, false, true, false] := by decide

/-- R828. -/
theorem test_thumb_tst :
    regsOf (runThumb 0x4208 ((thumb |> put [(.r0, 0x1), (.r1, 0x2)]) |> flags true false true true)) [.r0] =
      some [0x1] ∧
    flagsOf (runThumb 0x4208 ((thumb |> put [(.r0, 0x1), (.r1, 0x2)]) |> flags true false true true)) =
      some [false, true, true, true] := by decide

/-- V-TH-15. -/
theorem test_thumb_neg :
    regsOf (runThumb 0x4248 (thumb |> put [(.r1, 0x80000000)])) [.r0] = some [0x80000000] ∧
    flagsOf (runThumb 0x4248 (thumb |> put [(.r1, 0x80000000)])) = some [true, false, false, true] := by decide

/-- R830. -/
theorem test_thumb_cmp_reg :
    regsOf (runThumb 0x4288 (thumb |> put [(.r0, 0x9), (.r1, 0x9)])) [.r0] = some [0x9] ∧
    flagsOf (runThumb 0x4288 (thumb |> put [(.r0, 0x9), (.r1, 0x9)])) = some [false, true, true, false] := by decide

/-- V-TH-17. -/
theorem test_thumb_cmn :
    regsOf (runThumb 0x42C8 (thumb |> put [(.r0, 0x7FFFFFFF), (.r1, 0x1)])) [.r0] = some [0x7FFFFFFF] ∧
    flagsOf (runThumb 0x42C8 (thumb |> put [(.r0, 0x7FFFFFFF), (.r1, 0x1)])) =
      some [true, false, false, true] := by decide

/-- R832. -/
theorem test_thumb_orr :
    regsOf (runThumb 0x4308 (thumb |> put [(.r0, 0xF0), (.r1, 0xF)])) [.r0] = some [0xFF] ∧
    flagsOf (runThumb 0x4308 (thumb |> put [(.r0, 0xF0), (.r1, 0xF)])) =
      some [false, false, false, false] := by decide

/-- V-TH-18. -/
theorem test_thumb_mul :
    regsOf (runThumb 0x4348 (thumb |> put [(.r0, 0x3), (.r1, 0x5)])) [.r0] = some [0xF] ∧
    (flagsOf (runThumb 0x4348 (thumb |> put [(.r0, 0x3), (.r1, 0x5)]))).map (List.take 2) =
      some [false, false] := by decide

/-- V-TH-19. -/
theorem test_thumb_mul_rd_is_rs :
    faultOf (runThumb 0x4340 thumb) = some (.unpredictable .thumbMulRdIsRm) := by decide

/-- R834. -/
theorem test_thumb_bic :
    regsOf (runThumb 0x4388 (thumb |> put [(.r0, 0xFF), (.r1, 0xF)])) [.r0] = some [0xF0] ∧
    flagsOf (runThumb 0x4388 (thumb |> put [(.r0, 0xFF), (.r1, 0xF)])) =
      some [false, false, false, false] := by decide

/-- R835. -/
theorem test_thumb_mvn :
    regsOf (runThumb 0x43C8 (thumb |> put [(.r1, 0x0)])) [.r0] = some [0xFFFFFFFF] ∧
    flagsOf (runThumb 0x43C8 (thumb |> put [(.r1, 0x0)])) = some [true, false, false, false] := by decide

/-- V-TH-20. -/
theorem test_thumb_add_hi :
    regsOf (runThumb 0x4440 ((thumb |> put [(.r0, 0x1), (.r8usr, 0x2)]) |> flags true true true true)) [.r0] =
      some [0x3] ∧
    flagsOf (runThumb 0x4440 ((thumb |> put [(.r0, 0x1), (.r8usr, 0x2)]) |> flags true true true true)) =
      some [true, true, true, true] := by decide

/-- V-TH-21. -/
theorem test_thumb_add_hi_low_operands :
    faultOf (runThumb 0x4408 thumb) = some (.unpredictable .hiRegLowOperands) := by decide

/-- R837. -/
theorem test_thumb_cmp_hi :
    regsOf (runThumb 0x4580 (thumb |> put [(.r0, 0x7), (.r8usr, 0x7)])) [.r8usr] = some [0x7] ∧
    flagsOf (runThumb 0x4580 (thumb |> put [(.r0, 0x7), (.r8usr, 0x7)])) =
      some [false, true, true, false] := by decide

/-- V-TH-22. -/
theorem test_thumb_mov_hi :
    regsOf (runThumb 0x46F7 (thumb |> put [(.r14usr, 0x8000101)])) [.pc] = some [0x8000100] := by decide

/-- V-TH-23. -/
theorem test_thumb_bx :
    (next? (runThumb 0x4708 (thumb |> put [(.r1, 0x08000000)]))).map (fun u => (u.cpsr.t, u.regs.pc)) =
      some (false, 0x08000000) := by decide

/-- V-TH-24, with A = 0x08000002. -/
theorem test_thumb_bx_pc_misaligned :
    faultOf (runThumb 0x4778 (thumb |> put [(.pc, 0x8000006)])) = some (.misalignedBxTarget) := by decide

/-- V-TH-26, in IWRAM: the base is PC with bits 1:0 cleared. -/
theorem test_thumb_ldr_pc :
    regsOf (runThumb 0x4801 ((thumb |> store [(0x03000100, 0x55667788)]) |> put [(.pc, 0x30000FE)])) [.r0] =
      some [0x55667788] := by decide

/-- R842. -/
theorem test_thumb_str_reg :
    bytesOf (runThumb 0x5088 (thumb |> put [(.r0, 0xCAFEBABE), (.r1, 0x3000100), (.r2, 0x4)])) 0x03000104 4 =
      some [0xBE, 0xBA, 0xFE, 0xCA] := by decide

/-- R843. -/
theorem test_thumb_strb_reg :
    bytesOf (runThumb 0x5488 (thumb |> put [(.r0, 0x1234), (.r1, 0x3000100), (.r2, 0x4)])) 0x03000104 2 =
      some [0x34, 0x00] := by decide

/-- V-TH-27. -/
theorem test_thumb_ldr_reg :
    regsOf (runThumb 0x5888 ((thumb |> loadBytes) |> put [(.r1, 0x3000100), (.r2, 0x4)])) [.r0] =
      some [0x1234FF80] := by decide

/-- R845. -/
theorem test_thumb_ldrb_reg :
    regsOf (runThumb 0x5C88 ((thumb |> loadBytes) |> put [(.r1, 0x3000100), (.r2, 0x4)])) [.r0] =
      some [0x80] := by decide

/-- R846. -/
theorem test_thumb_strh_reg :
    bytesOf (runThumb 0x5288 (thumb |> put [(.r0, 0xABCD), (.r1, 0x3000100), (.r2, 0x4)])) 0x03000104 3 =
      some [0xCD, 0xAB, 0x00] := by decide

/-- V-TH-28. -/
theorem test_thumb_ldsb :
    regsOf (runThumb 0x5688 ((thumb |> loadBytes) |> put [(.r1, 0x3000100), (.r2, 0x4)])) [.r0] =
      some [0xFFFFFF80] := by decide

/-- V-TH-29. -/
theorem test_thumb_ldrh_reg :
    regsOf (runThumb 0x5A88 ((thumb |> loadBytes) |> put [(.r1, 0x3000100), (.r2, 0x4)])) [.r0] =
      some [0xFF80] := by decide

/-- V-TH-30. -/
theorem test_thumb_ldsh :
    regsOf (runThumb 0x5E88 ((thumb |> loadBytes) |> put [(.r1, 0x3000100), (.r2, 0x4)])) [.r0] =
      some [0xFFFFFF80] := by decide

/-- R850. -/
theorem test_thumb_str_imm :
    bytesOf (runThumb 0x6048 (thumb |> put [(.r0, 0x7), (.r1, 0x3000100)])) 0x03000104 4 =
      some [0x07, 0x00, 0x00, 0x00] := by decide

/-- R851. -/
theorem test_thumb_ldr_imm :
    regsOf (runThumb 0x6848 ((thumb |> loadBytes) |> put [(.r1, 0x3000100)])) [.r0] = some [0x1234FF80] := by decide

/-- R852. -/
theorem test_thumb_strb_imm :
    bytesOf (runThumb 0x7048 (thumb |> put [(.r0, 0x1234), (.r1, 0x3000100)])) 0x03000100 3 =
      some [0x00, 0x34, 0x00] := by decide

/-- R853. -/
theorem test_thumb_ldrb_imm :
    regsOf (runThumb 0x7848 ((thumb |> loadBytes) |> put [(.r1, 0x3000104)])) [.r0] = some [0xFF] := by decide

/-- R854. -/
theorem test_thumb_strh_imm :
    bytesOf (runThumb 0x8048 (thumb |> put [(.r0, 0xABCD), (.r1, 0x3000100)])) 0x03000102 2 =
      some [0xCD, 0xAB] := by decide

/-- R855. -/
theorem test_thumb_ldrh_imm :
    regsOf (runThumb 0x8848 ((thumb |> loadBytes) |> put [(.r1, 0x3000104)])) [.r0] = some [0x1234] := by decide

/-- V-TH-31. -/
theorem test_thumb_str_sp :
    bytesOf (runThumb 0x9001 (thumb |> put [(.r0, 0x7), (.r13usr, 0x3007F00)])) 0x03007F04 4 =
      some [0x07, 0x00, 0x00, 0x00] := by decide

/-- R857. -/
theorem test_thumb_ldr_sp :
    regsOf (runThumb 0x9801 ((thumb |> loadBytes) |> put [(.r13usr, 0x3000100)])) [.r0] =
      some [0x1234FF80] := by decide

/-- V-TH-32, with A = 0x08000002. -/
theorem test_thumb_add_pc :
    regsOf (runThumb 0xA001 (thumb |> put [(.pc, 0x8000006)])) [.r0] = some [0x8000008] := by decide

/-- R863. -/
theorem test_thumb_add_sp_rd :
    regsOf (runThumb 0xA801 (thumb |> put [(.r13usr, 0x3007F00)])) [.r0] = some [0x3007F04] := by decide

/-- R864. -/
theorem test_thumb_add_sp :
    regsOf (runThumb 0xB002 (thumb |> put [(.r13usr, 0x3007F00)])) [.r13usr] = some [0x3007F08] := by decide

/-- V-TH-33. -/
theorem test_thumb_sub_sp :
    regsOf (runThumb 0xB082 (thumb |> put [(.r13usr, 0x3007F00)])) [.r13usr] = some [0x3007EF8] := by decide

/-- V-TH-34. -/
theorem test_thumb_push :
    regsOf (runThumb 0xB503 (thumb |> put [(.r0, 0x1), (.r1, 0x2), (.r14usr, 0x8000011), (.r13usr, 0x3007F00)])) [.r13usr] =
      some [0x3007EF4] ∧
    bytesOf (runThumb 0xB503 (thumb |> put [(.r0, 0x1), (.r1, 0x2), (.r14usr, 0x8000011), (.r13usr, 0x3007F00)])) 0x03007EF4 12 =
      some [0x01, 0x00, 0x00, 0x00, 0x02, 0x00, 0x00, 0x00, 0x11, 0x00, 0x00, 0x08] := by decide

/-- V-TH-35. -/
theorem test_thumb_pop :
    regsOf (runThumb 0xBD03 ((thumb |> store [(0x03007EF4, 0x00000001), (0x03007EF8, 0x00000002), (0x03007EFC, 0x08000011)]) |> put [(.r13usr, 0x3007EF4)])) [.r0, .r1, .r13usr, .pc] =
      some [0x1, 0x2, 0x3007F00, 0x8000010] := by decide

/-- V-TH-36. -/
theorem test_thumb_stmia :
    regsOf (runThumb 0xC106 (thumb |> put [(.r1, 0x3000100), (.r2, 0x4)])) [.r1] = some [0x3000108] ∧
    bytesOf (runThumb 0xC106 (thumb |> put [(.r1, 0x3000100), (.r2, 0x4)])) 0x03000100 8 =
      some [0x00, 0x01, 0x00, 0x03, 0x04, 0x00, 0x00, 0x00] := by decide

/-- V-TH-37. -/
theorem test_thumb_ldmia :
    regsOf (runThumb 0xC906 ((thumb |> store [(0x03000100, 0x11111111), (0x03000104, 0x22222222)]) |> put [(.r1, 0x3000100), (.r2, 0x4)])) [.r1, .r2] =
      some [0x11111111, 0x22222222] := by decide

/-- V-TH-38. -/
theorem test_thumb_beq :
    regsOf (runThumb 0xD002 (thumb |> flags false true false false)) [.pc] = some [0x8000008] := by decide

/-- V-TH-41. -/
theorem test_thumb_b :
    regsOf (runThumb 0xE001 thumb) [.pc] = some [0x8000006] := by decide

/-- V-TH-42, with A = 0x08000010. -/
theorem test_thumb_bl_first :
    regsOf (runThumb 0xF7FF (thumb |> put [(.pc, 0x8000014)])) [.r14usr] = some [0x7FFF014] := by decide

/-- V-TH-42, the second half at 0x08000012. -/
theorem test_thumb_bl_second :
    regsOf (runThumb 0xFFFE (thumb |> put [(.pc, 0x8000016), (.r14usr, 0x7FFF014)])) [.pc, .r14usr] =
      some [0x8000010, 0x8000015] := by decide

/-- V-TH-40. -/
theorem test_thumb_swi :
    entry (runThumb 0xDF10 (thumb |> put [(.pc, 0x08000104)] |> policy .trap)) .r14svc =
      some (0x08000102, 0x3F, 0x93, 0x08) := by decide

/-- V-TH-44 and R881. -/
theorem test_thumb_undefined_de :
    entry (runThumb 0xDE00 (thumb |> put [(.pc, 0x08000104)] |> policy .trap)) .r14und =
      some (0x08000102, 0x3F, 0x9B, 0x04) := by decide

/-- V-TH-44 and R881. -/
theorem test_thumb_undefined_e8 :
    entry (runThumb 0xE800 (thumb |> put [(.pc, 0x08000104)] |> policy .trap)) .r14und =
      some (0x08000102, 0x3F, 0x9B, 0x04) := by decide

/-- V-TH-44 and R881. -/
theorem test_thumb_undefined_b :
    entry (runThumb 0xB100 (thumb |> put [(.pc, 0x08000104)] |> policy .trap)) .r14und =
      some (0x08000102, 0x3F, 0x9B, 0x04) := by decide

/-! ### Shifter and adder -/

/-- V-SH-1. -/
theorem test_shift_immediate :
    shiftImm .lsl 0 0x80000001 true = ⟨0x80000001, true⟩ ∧ shiftImm .lsl 31 0x00000003 false = ⟨0x80000000, true⟩ ∧
    shiftImm .lsr 0 0x80000000 false = ⟨0, true⟩ ∧ shiftImm .asr 0 0x7FFFFFFF true = ⟨0, false⟩ ∧
    shiftImm .asr 4 0x80000010 false = ⟨0xF8000001, false⟩ ∧ shiftImm .ror 0 0x00000002 true = ⟨0x80000001, false⟩ ∧
    shiftImm .ror 8 0x000000FF false = ⟨0xFF000000, true⟩ := by decide

/-- V-SH-2. -/
theorem test_shift_register :
    shiftReg .lsl 0 0x12345678 true = ⟨0x12345678, true⟩ ∧ shiftReg .lsl 32 0x00000001 false = ⟨0, true⟩ ∧
    shiftReg .lsl 33 0xFFFFFFFF true = ⟨0, false⟩ ∧ shiftReg .lsr 32 0x80000000 false = ⟨0, true⟩ ∧
    shiftReg .lsr 33 0x80000000 true = ⟨0, false⟩ ∧ shiftReg .asr 32 0x80000000 false = ⟨0xFFFFFFFF, true⟩ ∧
    shiftReg .ror 32 0x80000001 false = ⟨0x80000001, true⟩ ∧ shiftReg .ror 36 0x0000000F false = ⟨0xF0000000, true⟩ ∧
    shiftReg .ror 0 0x00000002 true = ⟨0x00000002, true⟩ := by decide

/-- V-SH-3. -/
theorem test_expand_immediate :
    expandImm 0xFF 0 true = ⟨0xFF, true⟩ ∧ expandImm 0xFF 4 false = ⟨0xFF000000, true⟩ ∧
    expandImm 0x01 1 true = ⟨0x40000000, false⟩ ∧ expandImm 0x3F 15 true = ⟨0xFC, false⟩ := by decide

/-- V-ALU-1, V-ALU-2 and V-ALU-3. -/
theorem test_adder :
    addWithCarry 0x80000000 0x80000000 false = ⟨0, true, true⟩ ∧
    addWithCarry 0xFFFFFFFF 0xFFFFFFFF true = ⟨0xFFFFFFFF, true, false⟩ ∧
    addWithCarry 5 0xFFFFFFFF true = ⟨5, true, false⟩ ∧
    subtract 0x80000000 1 = ⟨0x7FFFFFFF, true, true⟩ ∧ subtract 3 0x80000000 = ⟨0x80000003, false, true⟩ ∧
    addWithCarry 0x80000000 (~~~0) false = ⟨0x7FFFFFFF, true, true⟩ := by decide

/-! ### The bus -/

/-- The start of the V-MEM vectors: a program image of 4 bytes. -/
def image : State := loadProgramImage [1, 2, 3, 4] State.reset

/-- V-MEM-1 and V-MEM-2: the mirrors of IWRAM and VRAM. -/
theorem test_mirrors :
    (read8 0x03008000 (write32 0x03000000 0x11223344 State.reset)).1 = 0x44 ∧
    (read8 0x06010000 (write8 0x06018000 0x5A State.reset)).1 = 0x5A := by decide

/-- V-MEM-3 and V-MEM-4: the second window, and open bus past the image. -/
theorem test_program_image :
    (read32 0x0A000000 image).1 = 0x04030201 ∧
    (read32 0x08000004 (read8 0x08000003 image).2).1 = 0x04040404 := by decide

/-- V-MEM-6 and V-MEM-7: the boot-ROM lock. -/
theorem test_boot_lock :
    let boot := loadBootImage (List.replicate 0x20 0x5C) State.reset
    (read8 0x20 (read8 0x10 (setBiosLocked true boot)).2).1 = 0x5C ∧ (read8 0x20 (read8 0x10 boot).2).1 = 0 := by decide

/-- V-MEM-9 to V-MEM-11: writes to the boot ROM, inside the image, and past it. -/
theorem test_rom_writes :
    write8 0x00000000 0xFF image = image ∧ (read8 0x08000001 (write8 0x08000001 0xEE image)).1 = 0xEE ∧
    write8 0x08000004 0xEE image = image := by decide

/-- V-MEM-12 and V-MEM-13: the bus reset, and an unmapped I/O offset. -/
theorem test_bus_reset :
    let s := busReset (write8 0x02000000 0x77 (write8 0x0E000000 0x11 image))
    (read8 0x0E000000 s).1 = 0xFF ∧ (read8 0x02000000 s).1 = 0 ∧ (read8 0x08000003 s).1 = 4 ∧
    (read8 0x04000400 { image with openBusLatch := 0x5A }).1 = 0x5A := by decide

/-- V-MEM-15 and V-MEM-16: the halfword store aligns, the halfword load rotates. -/
theorem test_halfword_misaligned :
    let s := write16 0x03000001 0xABCD State.reset
    (read8 0x03000000 s).1 = 0xCD ∧ (read8 0x03000001 s).1 = 0xAB ∧ (read16 0x03000001 s).1 = 0xCD0000AB := by decide

/-! ### Steps -/

/-- V-PIPE-1: priming. -/
theorem test_priming :
    let s := initializeForExecution { image with regs := { image.regs with pc := 0x08000000 } }
    s.armExecuting = some 0x04030201 ∧ s.armFetched = none ∧ s.regs.pc = 0x08000008 ∧ s.flushFlag = false ∧
    s.primed = true := by decide

/-- V-PIPE-2: MOV R0, R0 at 0x03000000 advances. -/
theorem test_step_advances :
    (next? (step (initializeForExecution (store [(0x03000000, 0xE1A00000), (0x03000004, 0xEAFFFFFE),
      (0x03000008, 0x12345678)] (put [(.pc, 0x03000000)] arm))))).map
      (fun u => (u.armExecuting, u.armDecoding, u.armFetched, u.regs.pc)) =
      some (some 0xEAFFFFFE, some 0x12345678, some 0x12345678, 0x0300000C) := by decide

/-- V-PIPE-3. -/
theorem test_step_unprimed : faultOf (step State.reset) = some .pipelineNotPrimed := by decide

/-- V-SRC-5: the branch with offset +8 refills from its target. -/
theorem test_step_branch :
    (next? (step (initializeForExecution (store [(0x03000000, 0xEA000002), (0x03000010, 0x11111111),
      (0x03000014, 0x22222222)] (put [(.pc, 0x03000000)] arm))))).map
      (fun u => (u.armExecuting, u.armDecoding, u.armFetched, u.regs.pc, u.flushFlag)) =
      some (some 0x11111111, some 0x22222222, none, 0x03000018, false) := by decide

/-- V-PIPE-7: BX to Thumb state refills the Thumb slots. -/
theorem test_step_bx_thumb :
    (next? (step (slot 0xE12FFF10 (store [(0x03000100, 0x22221111)] (put [(.r0, 0x03000101)] arm))))).map
      (fun u => (u.thExecuting, u.thDecoding, u.regs.pc)) =
      some (some 0x1111, some 0x2222, 0x03000104) := by decide

/-- V-EXC-1 and V-EXC-3: IRQ, and FIQ before it, in place of the instruction at 0x08000010. -/
theorem test_step_interrupts :
    let s := slot 0xE3A00001 (put [(.pc, 0x08000018)] (policy .trap arm))
    entry (step (setLines true false s)) .r14irq = some (0x08000014, 0x1F, 0x92, 0x20) ∧
    entry (step (setLines true true s)) .r14fiq = some (0x08000014, 0x1F, 0xD1, 0x24) ∧
    regsOf (step (setLines true true s)) [.r0] = some [0] := by decide

/-- V-EXC-4: an IRQ in Thumb state. -/
theorem test_step_interrupt_thumb :
    entry (step (setLines true false { put [(.pc, 0x08000016)] (policy .trap thumb) with thExecuting := some 0x2001 }))
      .r14irq = some (0x08000016, 0x3F, 0x92, 0x20) := by decide

/-- V-EXC-5: an unmasked line under Fault. -/
theorem test_step_interrupt_fault :
    faultOf (step (setLines true false (slot 0xE3A00001 (policy .fault arm)))) = some .interruptNotModelled := by decide

/-- R353: what a faulting handler wrote stays. LDR PC, [R1], #4 at a misaligned address, after its write-back; STMIA R0,
the second register of which has no word in the mode, after the first store; LDMIA R0! with R15 and S = 1 in System mode,
after the loads and the write-back. -/
theorem test_fault_leaves_writes :
    (leftBy? (run 0xE491F004 (put [(.r1, 0x03000101)] arm))).map (fun s => (s.regs.r1, s.regs.pc, s.flushRequested)) =
      some (0x03000105, 0x08000008, false) ∧
    (leftBy? (run 0xE8802002 (inMode 0x1C (put [(.r0, 0x03000100), (.r1, 0xA)] arm)))).map
      (fun s => (inspectByte 0x03000100 s, s.faulted)) = some (0x0A, some (.invalidMode 0x1C)) ∧
    (leftBy? (run 0xE8F08002 (blockWords (put [(.r0, 0x03000100)] arm)))).map
      (fun s => (s.regs.r0, s.regs.r1, s.regs.pc, s.faulted)) =
      some (0x03000108, 0x33333333, 0x08000008, some .noSpsr) := by decide

/-- R353: no step runs after a fault. -/
theorem test_step_after_fault :
    let s := slot 0xE3A00001 { arm with faulted := some .noSpsr }
    faultOf (step s) = some .noSpsr ∧ leftBy? (step s) = some s := by decide

/-- R973: MOV R0, #1 then a self-branch ends at the branch, which is not executed; a fault ends the run in the state it
left; without either the host stops. -/
theorem test_run_ends :
    let k : StepCall := { calls := [], irq := false, fiq := false }
    let loop := initializeForExecution (store [(0x03000000, 0xE3A00001), (0x03000004, 0xEAFFFFFE)]
      (put [(.pc, 0x03000000)] arm))
    let bad := initializeForExecution (store [(0x03000000, 0xE491F004)] (put [(.pc, 0x03000000), (.r1, 0x03000101)] arm))
    (match (runFrom [k, k, k] loop).last with
      | .selfBranch s => some (s.regs.r0, s.regs.pc)
      | _ => none) = some (1, 0x0300000C) ∧
    (runFrom [k, k, k] loop).states.length = 1 ∧
    (match (runFrom [k, k, k] bad).last with
      | .fault (.stopped r s) => some (r, s.regs.r1)
      | _ => none) = some (.unpredictable .ldrPcMisaligned, 0x03000105) ∧
    (match (runFrom [k] loop).last with
      | .hostStopped s => some s.regs.r0
      | _ => none) = some 1 := by decide

/-- A placed instruction is the next to run: MOV R0, #1 after reset, and the Thumb MOV R0, #0x80. -/
theorem test_placed_instruction :
    regsOf (step (State.reset.withFetchWord 32 0xE3A00001)) [.r0] = some [1] ∧
    regsOf (step (State.reset.withFetchWord 16 0x2080)) [.r0] = some [0x80] := by decide

/-! ### The hypotheses of the obligations are met

One theorem per obligation with hypotheses, or per clause where the clauses exclude each other: a state and operands that
meet all of them together. -/

theorem next_of_isSome {o : Answer} (h : (next? o).isSome = true) : ∃ t, o = .next t := by
  cases o with
  | next t => exact ⟨t, rfl⟩
  | fault f => cases h
  | refused r => cases h

theorem fault_of_isSome {o : Answer} (h : (faultOf o).isSome = true) : ∃ f, o = .fault f := by
  cases o with
  | next t => cases h
  | fault f => exact ⟨f, rfl⟩
  | refused r => cases h

theorem stopped_of_isSome {o : Answer} (h : (faultOf o).isSome = true) : ∃ r t, o = .fault (.stopped r t) := by
  obtain ⟨⟨r, t⟩, e⟩ := fault_of_isSome h
  exact ⟨r, t, e⟩

/-- DecodeOfEncode: the values of each check's boundary that pass it. -/
theorem witness_decodeOfEncode :
    Instr.wellFormed (.str .al true true true 1 0 (.imm 4)) = true ∧
    Instr.wellFormed (.ldrb .al false true false 1 0 (.reg 31 .ror 2)) = true ∧
    Instr.wellFormed (.tBCond .le 0xFF) = true ∧ Instr.wellFormed (.tUndefinedB 0x100) = true ∧
    Instr.wellFormed (.tUndefinedB 0x3FF) = true ∧ Instr.wellFormed (.tUndefinedB 0xFFF) = true := by decide

/-- FailedConditionOnlyAdvances: MOVEQ R0, #1 with Z = 0. -/
theorem witness_failedCondition :
    let s := slot 0x03A00001 arm
    armCond (.movImm .eq false 0 0 1) = some .eq ∧ Cond.passed .eq s.cpsr = false ∧ s.faulted = none ∧ s.primed = true ∧
    s.flushFlag = false ∧ executingInstr s = some (.movImm .eq false 0 0 1) ∧ s.config.excPolicy = .noop := by decide

/-- StepRunsExecutingSlot: not primed; an instruction that answers a next state; one that faults. -/
theorem witness_step_unprimed : State.reset.faulted = none ∧ State.reset.primed = false := ⟨rfl, rfl⟩

theorem witness_step_next :
    let s := slot 0xE3A00001 arm
    (s.faulted = none ∧ s.primed = true ∧ s.config.excPolicy = .noop ∧
      (if s.cpsr.t then s.thExecuting.map decodeThumb else s.armExecuting.map decodeArm) =
        some (.movImm .al false 0 0 1)) ∧
    ∃ t, exec (.movImm .al false 0 0 1) { s with flushRequested := false } = .next t :=
  ⟨by decide, next_of_isSome (by decide)⟩

theorem witness_step_fault :
    let s := slot 0xE1B0F00E (policy .trap arm)
    (s.faulted = none ∧ s.primed = true ∧ pendingInterrupt s = none ∧
      (if s.cpsr.t then s.thExecuting.map decodeThumb else s.armExecuting.map decodeArm) =
        some (.movRegImmShift .al true 15 0 .lsl 14)) ∧
    ∃ f, exec (.movRegImmShift .al true 15 0 .lsl 14) { s with flushRequested := false } = .fault f :=
  ⟨by decide, fault_of_isSome (by decide)⟩

/-- StepRunsTheBytesAtPc, in ARM state: MOV R0, #1 at 0x03000000. -/
theorem witness_bytesAtPc_arm :
    let s := store [(0x03000000, 0xE3A00001)] (put [(.pc, 0x03000000)] State.reset)
    (s.faulted = none ∧ s.config.excPolicy = .noop ∧ s.cpsr.t = false ∧ s.regs.pc.extractLsb' 0 2 = 0#2 ∧
      readCell s s.regs.pc = some 0x03000000 ∧ readCell s (s.regs.pc + 1) = some 0x03000001 ∧
      readCell s (s.regs.pc + 2) = some 0x03000002 ∧ readCell s (s.regs.pc + 3) = some 0x03000003) ∧
    ∃ t, exec (decodeArm (s.mem.read 0x03000003 ++ s.mem.read 0x03000002 ++ s.mem.read 0x03000001 ++
        s.mem.read 0x03000000)) { initializeForExecution s with flushRequested := false } = .next t :=
  ⟨by decide, next_of_isSome (by decide)⟩

/-- StepRunsTheBytesAtPc, in Thumb state: MOV R0, #1 at 0x03000002, with quiet lines under Trap. -/
theorem witness_bytesAtPc_thumb :
    let s := policy .trap (store [(0x03000000, 0x20010000)] (put [(.pc, 0x03000002)] thumb))
    LinesLow s ∧
    (s.faulted = none ∧ s.cpsr.t = true ∧ s.regs.pc.extractLsb' 0 1 = 0#1 ∧
      readCell s s.regs.pc = some 0x03000002 ∧ readCell s (s.regs.pc + 1) = some 0x03000003) ∧
    ∃ t, exec (decodeThumb (s.mem.read 0x03000003 ++ s.mem.read 0x03000002))
        { initializeForExecution s with flushRequested := false } = .next t :=
  ⟨⟨rfl, rfl⟩, by decide, next_of_isSome (by decide)⟩

/-- StepEnds: the four clauses of a step that goes on. -/
theorem witness_stepEnds :
    (arm.flushRequested = false ∧ arm.flushFlag = false ∧ arm.cpsr.t = false) ∧
    (thumb.flushRequested = false ∧ thumb.flushFlag = false ∧ thumb.cpsr.t = true) ∧
    ((writePc 0 arm).flushRequested = true ∧ (writePc 0 arm).cpsr.t = false) ∧
    ((writePc 0 thumb).flushRequested = true ∧ (writePc 0 thumb).cpsr.t = true) := by decide

/-- StepEnds: a step that faults. -/
theorem witness_stepEnds_fault : ∃ r t, step (slot 0xE1B0F00E arm) = .fault (.stopped r t) :=
  stopped_of_isSome (by decide)

/-- InterruptLines: FIQ; IRQ with FIQ masked; the Fault policy. -/
theorem witness_interrupt_taken :
    let s := setLines true true (policy .trap arm)
    let masked := { s with cpsr := { s.cpsr with f := true } }
    (s.faulted = none ∧ s.primed = true ∧ s.config.excPolicy = .trap ∧ s.fiqLine = true ∧ s.cpsr.f = false) ∧
    (masked.faulted = none ∧ masked.primed = true ∧ masked.config.excPolicy = .trap ∧ ¬(masked.fiqLine = true ∧ masked.cpsr.f = false) ∧
      masked.irqLine = true ∧ masked.cpsr.i = false) := by decide

theorem witness_interrupt_fault :
    let s := setLines true false (policy .fault arm)
    s.faulted = none ∧ s.primed = true ∧ s.config.excPolicy = .fault ∧
      ((s.fiqLine = true ∧ s.cpsr.f = false) ∨ (s.irqLine = true ∧ s.cpsr.i = false)) := by decide

/-- InterruptLines: both lines high and masked, under Trap and under Fault. -/
theorem witness_interrupt_masked :
    let s := fun p : ExcPolicy => setLines true true (slot 0xE3A00001 (policy p State.reset))
    let held := fun p : ExcPolicy => { s p with primed := true }
    ∀ p ∈ [ExcPolicy.trap, .fault], (held p).faulted = none ∧ (held p).primed = true ∧ (held p).fiqLine = true ∧
      (held p).cpsr.f = true ∧ (held p).irqLine = true ∧ (held p).cpsr.i = true ∧
      (held p).armExecuting.map decodeArm = some (.movImm .al false 0 0 1) ∧
      (next? (exec (.movImm .al false 0 0 1) { held p with flushRequested := false })).isSome = true := by decide

/-- InterruptLines: the Noop policy. -/
theorem witness_interrupt_noop :
    let s := setLines true true (slot 0xE3A00001 arm)
    (s.faulted = none ∧ s.primed = true ∧ s.config.excPolicy = .noop) ∧ ∃ t, step s = .next t :=
  ⟨by decide, next_of_isSome (by decide)⟩

/-- ConstructedState: the ends of its ranges, and the last byte of `IO_DEFAULTS`. -/
theorem witness_constructedState :
    ((0 : Nat) < 0x04000000 ∧ (0x03FFFFFF : Nat) < 0x04000000) ∧
    ((0x04000400 : Nat) ≤ 0x04000400 ∧ (0x04000400 : Nat) < 0x0E000000) ∧
    ((0x04000400 : Nat) ≤ 0x0DFFFFFF ∧ (0x0DFFFFFF : Nat) < 0x0E000000) ∧
    ((0x0E000000 : Nat) ≤ 0x0E00FFFF ∧ (0x0E00FFFF : Nat) < 0x0E010000) ∧
    ((0 : Nat) < 0x400 ∧ [(7 : Byte)][0]? = some 7) := by decide

/-- InvAtReset: a program image loaded and the program counter at it, in ARM and in Thumb state. -/
theorem witness_invAtReset :
    let s := loadProgramImage [1, 0, 0xA0, 0xE3] State.reset
    let arm := { s with regs := s.regs.write .pc 0x08000000 }
    let thumb := { arm with cpsr := Psr.ofWord 0x3F }
    (MemCanonical arm ∧ PcAligned arm ∧ arm.flushRequested = false) ∧
    (FreshReset arm ∧ LaunchAligned arm) ∧ FreshReset thumb ∧ LaunchAligned thumb := by
  have f := (FreshReset.construct Config.documentDefaults false false false false).loadProgramImage [1, 0, 0xA0, 0xE3]
  have g := f.writeRegister 15 0x08000000 rfl
  exact ⟨⟨by unfold MemCanonical; decide, by unfold PcAligned; decide, rfl⟩, ⟨g, by unfold LaunchAligned; decide⟩,
    g.writeCpsr 0x3F rfl, by unfold LaunchAligned; decide⟩

/-- HostMemoryOperations: a canonical memory, and an index of each list at each end. -/
theorem witness_hostMemory : MemCanonical image ∧
    ((0 : Nat) < 0x4000 ∧ [(1 : Byte), 2][0]? = some 1 ∧ [(1 : Byte), 2].length ≤ 2 ∧ [(1 : Byte), 2].length ≤ 0x3FFF) ∧
    ((1 : Nat) < 0x2000000 ∧ [(1 : Byte), 2][1]? = some 2) ∧
    ((0x07FFFFFF : Nat) < 0x08000000 ∧ (0x0A000000 : Nat) ≤ 0x0A000000) :=
  ⟨by unfold MemCanonical; decide, by decide⟩

theorem witness_hostMemory_io :
    let s := State.construct { Config.documentDefaults with ioDefaults := [9, 8] } false false false false
    MemCanonical s ∧ (1 : Nat) < 0x400 ∧ s.config.ioDefaults[1]? = some 8 :=
  ⟨by unfold MemCanonical; decide, by decide⟩

/-- AddressMap: the first and the last address of each region. -/
theorem witness_addressMap :
    let top := fun a : Word => a.toNat / 2 ^ 24
    top 0x00000000 = 0x00 ∧ top 0x00FFFFFF = 0x00 ∧ top 0x01000000 = 0x01 ∧ top 0x02000000 = 0x02 ∧ top 0x02FFFFFF = 0x02 ∧
    top 0x03000000 = 0x03 ∧ top 0x03FFFFFF = 0x03 ∧ top 0x04000000 = 0x04 ∧ top 0x04FFFFFF = 0x04 ∧ top 0x05000000 = 0x05 ∧
    top 0x05FFFFFF = 0x05 ∧ top 0x06000000 = 0x06 ∧ top 0x06FFFFFF = 0x06 ∧ top 0x07000000 = 0x07 ∧ top 0x07FFFFFF = 0x07 ∧
    (0x08 ≤ top 0x08000000 ∧ top 0x08000000 ≤ 0x0D) ∧ (0x08 ≤ top 0x0DFFFFFF ∧ top 0x0DFFFFFF ≤ 0x0D) ∧
    top 0x0E000000 = 0x0E ∧ top 0x0FFFFFFF = 0x0F ∧ 0x10 ≤ top 0x10000000 ∧ 0x10 ≤ top 0xFFFFFFFF := by decide

/-- ByteAccess: a byte in storage, the same byte written, an open-bus address, a discarded write. -/
theorem witness_byteAccess : MemCanonical image ∧
    (readCell image 0x08000003 = some 0x08000003 ∧ writeCell image 0x08000003 = some 0x08000003) ∧
    (readCell image 0x08000004 = none ∧ writeCell image 0x08000004 = none) ∧
    writeCell image 0x08000003 ≠ some 0x08000002 :=
  ⟨by unfold MemCanonical; decide, by decide⟩

/-- StoreThenLoad: a misaligned word under rotation, an aligned one without it. -/
theorem witness_storeThenLoad_rotate :
    MemCanonical State.reset ∧ State.reset.config.misalignedStoreRotate = true ∧
    ∀ j : Nat, j < 4 → ∃ k, writeCell State.reset ((0x03000003#32 &&& ~~~3#32) + BitVec.ofNat 32 j) = some k ∧
      readCell State.reset ((0x03000003#32 &&& ~~~3#32) + BitVec.ofNat 32 j) = some k := by
  refine ⟨rfl, rfl, fun j hj => ⟨0x03000000 + j, ?_⟩⟩
  interval_cases j <;> decide

theorem witness_storeThenLoad_aligned :
    let s := { State.reset with config := { State.reset.config with misalignedStoreRotate := false } }
    MemCanonical s ∧ (0x02000000#32).extractLsb' 0 2 = 0#2 ∧
    ∀ j : Nat, j < 4 → ∃ k, writeCell s ((0x02000000#32 &&& ~~~3#32) + BitVec.ofNat 32 j) = some k ∧
      readCell s ((0x02000000#32 &&& ~~~3#32) + BitVec.ofNat 32 j) = some k := by
  refine ⟨rfl, rfl, fun j hj => ⟨0x02000000 + j, ?_⟩⟩
  interval_cases j <;> decide

/-- RegisterBanks: a mode outside FIQ, and an invalid code. -/
theorem witness_registerBanks :
    (0x1F : ModeBits) ≠ 0x11 ∧ ((0x1F : ModeBits) = 0x10 ∨ (0x1F : ModeBits) = 0x1F) ∧
    ((0x1C : ModeBits) ∉ ([0x10, 0x11, 0x12, 0x13, 0x17, 0x1B, 0x1F] : List ModeBits) ∧
      (inMode 0x1C arm).cpsr.mode = 0x1C) ∧ 15 < 16 := by decide

/-- RegisterWrites: an index below 15. -/
theorem witness_registerWrites : (14 : Reg) ≠ 15 ∧ Names arm 14 .r14usr := ⟨by decide, rfl⟩

/-- ShiftByImmediate: both ends of the amounts that are not 0. -/
theorem witness_shiftByImmediate : (1 : BitVec 5) ≠ 0 ∧ (31 : BitVec 5) ≠ 0 := by decide

/-- ShiftByRegister: the ends of each range of amounts. -/
theorem witness_shiftByRegister :
    (1 ≤ (1 : Byte).toNat ∧ (1 : Byte).toNat ≤ 31) ∧ (1 ≤ (31 : Byte).toNat ∧ (31 : Byte).toNat ≤ 31) ∧
    (32 : Byte).toNat = 32 ∧ 32 < (33 : Byte).toNat ∧ 32 ≤ (255 : Byte).toNat ∧
    (1 ≤ (224 : Byte).toNat ∧ (224 : Byte).toNat % 32 = 0) ∧ (255 : Byte).toNat % 32 ≠ 0 := by decide

/-- DataProcessingResult: a comparison with S = 0 in format A3; a result from each of the three formats. -/
theorem witness_dpResult_comparison :
    Cond.passed .al arm.cpsr = true ∧ regShiftNamesR15 (.regShift 2 .lsr 1) 0 14 = false ∧ Names arm 14 .r14usr ∧
    Operand2Is (.regShift 2 .lsr 1) arm (shiftReg .lsr (lowByte (arm.regs.read .r2)) (arm.regs.read .r1) arm.cpsr.c) ∧
    dpComparison .cmp = true :=
  ⟨rfl, rfl, rfl, ⟨_, _, rfl, rfl, rfl⟩, rfl⟩

theorem witness_dpResult_register :
    Cond.passed .al arm.cpsr = true ∧ regShiftNamesR15 (.immShift 4 .lsl 15) 14 15 = false ∧ Names arm 15 .pc ∧
    Operand2Is (.immShift 4 .lsl 15) arm (shiftImm .lsl 4 arm.regs.pc arm.cpsr.c) ∧ dpComparison .rsc = false ∧
    (14 : Reg) ≠ 15 ∧ Names arm 14 .r14usr :=
  ⟨rfl, rfl, rfl, ⟨_, rfl, rfl⟩, rfl, by decide, rfl⟩

/-- DataProcessingToPc: in Supervisor mode, which has a saved status word, and in System mode, which has none. -/
theorem witness_dpToPc :
    (Cond.passed .al State.reset.cpsr = true ∧ dpComparison .sub = false ∧ regShiftNamesR15 (.imm 0 4) 15 14 = false ∧
      Names State.reset 14 .r14svc ∧ Operand2Is (.imm 0 4) State.reset (expandImm 4 0 State.reset.cpsr.c) ∧
      hasSpsr State.reset.cpsr.mode = true) ∧
    (Names arm 14 .r14usr ∧ Operand2Is (.imm 0 4) arm (expandImm 4 0 arm.cpsr.c) ∧ hasSpsr arm.cpsr.mode = false) :=
  ⟨⟨rfl, rfl, rfl, rfl, rfl, rfl⟩, rfl, rfl, rfl⟩

/-- RegisterShiftOfR15Faults, in each of the four fields. -/
theorem witness_regShiftR15 :
    Cond.passed .al arm.cpsr = true ∧
    ((15 : Reg) = 15 ∨ (0 : Reg) = 15 ∨ (0 : Reg) = 15 ∨ (0 : Reg) = 15) ∧
    ((0 : Reg) = 15 ∨ (15 : Reg) = 15 ∨ (0 : Reg) = 15 ∨ (0 : Reg) = 15) ∧
    ((0 : Reg) = 15 ∨ (0 : Reg) = 15 ∨ (15 : Reg) = 15 ∨ (0 : Reg) = 15) ∧
    ((0 : Reg) = 15 ∨ (0 : Reg) = 15 ∨ (0 : Reg) = 15 ∨ (15 : Reg) = 15) := by decide

/-- SingleLoad into a register with write-back; into R15 from an aligned and from a misaligned address. -/
theorem witness_singleLoad :
    let s := put [(.r1, 0x03000100)] arm
    Cond.passed .al s.cpsr = true ∧ ((1 : Reg) ≠ 15 ∧ (1 : Reg) ≠ 14) ∧ (14 : Reg) ≠ 15 ∧ Names s 1 .r1 ∧
    Names s 14 .r14usr ∧ SdtOffsetIs (.reg 31 .asr 13) s (shiftImm .asr 31 (s.regs.read .r13usr) s.cpsr.c).value :=
  ⟨rfl, by decide, by decide, rfl, rfl, by decide, ⟨_, rfl, rfl⟩⟩

theorem witness_singleLoad_pc :
    let s := put [(.r1, 0x03000100)] arm
    Cond.passed .al s.cpsr = true ∧ ((1 : Reg) ≠ 15 ∧ (1 : Reg) ≠ 15) ∧ Names s 1 .r1 ∧ Names s 15 .pc ∧
    SdtOffsetIs (.imm 4) s 4 ∧ (movedBase true (s.regs.read .r1) 4).toNat % 4 = 0 ∧
    SdtOffsetIs (.imm 7) s 7 ∧ (movedBase true (s.regs.read .r1) 7).toNat % 4 ≠ 0 :=
  ⟨rfl, by decide, rfl, rfl, rfl, rfl, rfl, by decide⟩

/-- SingleStore of R15, with write-back. -/
theorem witness_singleStore :
    let s := put [(.r1, 0x03000100)] arm
    Cond.passed .al s.cpsr = true ∧ ((1 : Reg) ≠ 15 ∧ (1 : Reg) ≠ 15) ∧ Names s 1 .r1 ∧ Names s 15 .pc ∧
    SdtOffsetIs (.imm 0xFFF) s 0xFFF :=
  ⟨rfl, by decide, rfl, rfl, rfl⟩

/-- SingleTransferFaults: each case with the earlier ones false. -/
theorem witness_singleTransferFaults :
    Cond.passed .al arm.cpsr = true ∧ sdtOffsetIsR15 (.reg 0 .lsl 15) = true ∧
    (sdtOffsetIsR15 (.imm 0) = false ∧ (!false || true) = true ∧ (15 : Reg) = 15) ∧
    ((!true || true) = true ∧ (3 : Reg) ≠ 15 ∧ (3 : Reg) = 3) ∧
    (((!true || false) = true → (15 : Reg) ≠ 15 ∧ (15 : Reg) ≠ 15) ∧ (15 : Reg) = 15) := by decide

/-- ArmBranch, with the link. -/
theorem witness_armBranch : Cond.passed .al State.reset.cpsr = true ∧ Names State.reset 14 .r14svc := ⟨rfl, rfl⟩

/-- BranchExchange: the ARM and the Thumb form, and the three kinds of target. -/
theorem witness_branchExchange :
    let s := put [(.r0, 0x08000101), (.r1, 0x08000104), (.r2, 0x08000102)] arm
    (∃ c, Cond.passed c s.cpsr = true ∧ Instr.bx .al 0 = .bx c 0) ∧
    (∃ h2 rs rd, (14 : Reg) = BitVec.ofBool h2 ++ rs ∧ Instr.tBx false true 6 0 = .tBx false h2 rs rd) ∧
    (Names s 0 .r0 ∧ (s.regs.read .r0).getLsbD 0 = true) ∧
    (Names s 1 .r1 ∧ (s.regs.read .r1).getLsbD 0 = false ∧ (s.regs.read .r1).getLsbD 1 = false) ∧
    (Names s 2 .r2 ∧ (s.regs.read .r2).getLsbD 0 = false ∧ (s.regs.read .r2).getLsbD 1 = true) ∧ Names s 14 .r14usr :=
  ⟨⟨_, rfl, rfl⟩, ⟨_, _, _, rfl, rfl⟩, ⟨rfl, rfl⟩, ⟨rfl, rfl, rfl⟩, ⟨rfl, rfl, rfl⟩, rfl⟩

/-- Mrs into R14 and into R15. -/
theorem witness_mrs :
    Cond.passed .al arm.cpsr = true ∧ (Names arm 14 .r14usr ∧ (14 : Reg) ≠ 15) ∧ Names arm 15 .pc :=
  ⟨rfl, ⟨rfl, by decide⟩, rfl⟩

/-- MsrCpsr: the immediate form in User mode with every mask bit, where T is not written; the register form with T
unchanged; the register form with T changed. -/
theorem witness_msrCpsr_user :
    let s := inMode 0x10 arm
    Cond.passed .al s.cpsr = true ∧
    (∃ rot imm8, Instr.msrImm .al false 15 2 0xFF = .msrImm .al false 15 rot imm8 ∧
      (0xF000000F : Word) = (imm8.zeroExtend 32).rotateRight (2 * rot.toNat)) ∧
    ((15 : BitVec 4).getLsbD (5 / 8) && (s.cpsr.mode != 0x10 || decide (24 ≤ 5))) = false :=
  ⟨rfl, ⟨_, _, rfl, by decide⟩, rfl⟩

theorem witness_msrCpsr_privileged :
    let s := put [(.r0, 0x600000D2), (.r1, 0x20)] arm
    Cond.passed .al s.cpsr = true ∧
    (∃ rm cm, rm ≠ 15 ∧ Names s rm cm ∧ Instr.msrReg .al false 9 0 = .msrReg .al false 9 rm ∧
      (0x600000D2 : Word) = s.regs.read cm) ∧
    (0x600000D2 : Word).getLsbD 5 = s.cpsr.t ∧
    (∃ rm cm, rm ≠ 15 ∧ Names s rm cm ∧ Instr.msrReg .al false 9 1 = .msrReg .al false 9 rm ∧
      (0x20 : Word) = s.regs.read cm) ∧
    (((9 : BitVec 4).getLsbD (5 / 8) && (s.cpsr.mode != 0x10 || decide (24 ≤ 5))) = true ∧
      (0x20 : Word).getLsbD 5 ≠ s.cpsr.t) :=
  ⟨rfl, ⟨0, .r0, by decide, rfl, rfl, rfl⟩, rfl, ⟨1, .r1, by decide, rfl, rfl, rfl⟩, by decide⟩

/-- MsrSpsr: the two forms. -/
theorem witness_msrSpsr :
    Cond.passed .al State.reset.cpsr = true ∧
    (∃ rot imm8, Instr.msrImm .al true 8 4 0xF0 = .msrImm .al true 8 rot imm8 ∧
      (0xF0000000 : Word) = (imm8.zeroExtend 32).rotateRight (2 * rot.toNat)) ∧
    ∃ rm cm, rm ≠ 15 ∧ Names State.reset rm cm ∧ Instr.msrReg .al true 15 14 = .msrReg .al true 15 rm ∧
      (0 : Word) = State.reset.regs.read cm :=
  ⟨rfl, ⟨_, _, rfl, by decide⟩, ⟨14, .r14svc, by decide, rfl, rfl, rfl⟩⟩

/-- Multiply: distinct registers; R15 as each operand; Rd = Rm. -/
theorem witness_multiply :
    Cond.passed .al arm.cpsr = true ∧ Names arm 14 .r14usr ∧ Names arm 3 .r3 ∧ Names arm 15 .pc ∧
    ((14 : Reg) ≠ 15 ∧ (3 : Reg) ≠ 15 ∧ (14 : Reg) ≠ 3) ∧
    ((15 : Reg) = 15 ∨ (3 : Reg) = 15 ∨ (3 : Reg) = 15) ∧ (3 : Reg) = 3 :=
  ⟨rfl, rfl, rfl, rfl, by decide, by decide, rfl⟩

/-- MultiplyLong: four registers of which only Rs may repeat; R15; a clash. -/
theorem witness_multiplyLong :
    Cond.passed .al arm.cpsr = true ∧ Names arm 1 .r1 ∧ Names arm 0 .r0 ∧ Names arm 2 .r2 ∧ Names arm 15 .pc ∧
    (¬((1 : Reg) = 15 ∨ (0 : Reg) = 15 ∨ (1 : Reg) = 15 ∨ (2 : Reg) = 15) ∧
      ¬((1 : Reg) = 0 ∨ (1 : Reg) = 2 ∨ (0 : Reg) = 2)) ∧
    ((1 : Reg) = 15 ∨ (0 : Reg) = 15 ∨ (15 : Reg) = 15 ∨ (2 : Reg) = 15) ∧
    ((1 : Reg) = 0 ∨ (1 : Reg) = 1 ∨ (0 : Reg) = 1) :=
  ⟨rfl, rfl, rfl, rfl, rfl, by decide, by decide, by decide⟩

/-- Swap: Rd = Rm, which the rule allows; R15; the base as Rd. -/
theorem witness_swap :
    Cond.passed .al arm.cpsr = true ∧ Names arm 2 .r2 ∧ Names arm 0 .r0 ∧ Names arm 15 .pc ∧
    ((2 : Reg) ≠ 15 ∧ (0 : Reg) ≠ 15 ∧ (2 : Reg) ≠ 0) ∧ ((2 : Reg) = 15 ∨ (0 : Reg) = 15 ∨ (15 : Reg) = 15) ∧
    ((2 : Reg) = 0 ∨ (2 : Reg) = 2) :=
  ⟨rfl, rfl, rfl, rfl, by decide, by decide, by decide⟩

/-- HalfwordLoad and HalfwordStore: pre-indexed with write-back and an immediate; post-indexed with a register. -/
theorem witness_halfword :
    let s := put [(.r1, 0x03000100)] arm
    Cond.passed .al s.cpsr = true ∧ (true = true ∨ true = false) ∧ (false = true ∨ false = false) ∧ (14 : Reg) ≠ 15 ∧
    ((1 : Reg) ≠ 15 ∧ (1 : Reg) ≠ 14) ∧ Names s 1 .r1 ∧ Names s 14 .r14usr ∧ HalfOffsetIs (.imm 15 15) s 0xFF ∧
    HalfOffsetIs (.reg 13) s (s.regs.read .r13usr) :=
  ⟨rfl, by decide, by decide, by decide, by decide, rfl, rfl, rfl, by decide, ⟨_, rfl, rfl⟩⟩

/-- HalfwordFaults: each case with the earlier ones false, for a load and a store. -/
theorem witness_halfwordFaults :
    Cond.passed .al arm.cpsr = true ∧
    (Instr.strhImm .al false true true 1 0 0 0 = halfStoreInstr .al false true true 1 0 (.imm 0 0)) ∧
    (∃ k, Instr.ldrshReg .al true true true 1 0 15 = halfLoadInstr k .al true true true 1 0 (.reg 15)) ∧
    ((0 : Reg) ≠ 15 ∧ halfOffsetIsR15 (.reg 15) = true) ∧
    ((0 : Reg) ≠ 15 ∧ halfOffsetIsR15 (.imm 0 0) = false ∧ (!true || true) = true) ∧ (3 : Reg) ≠ 15 :=
  ⟨rfl, rfl, ⟨.signedHalf, rfl⟩, by decide, by decide, by decide⟩

/-- BlockLoad: write-back without R15; the user bank; R15 with a restored status word, and in a mode without one. -/
theorem witness_blockLoad :
    let s := State.reset
    let named := fun (bank : ModeBits) (l : List Reg) (cs : List RegCell) =>
      List.Forall₂ (fun (i : Reg) (cell : RegCell) => resolve bank i.toNat = .ok cell) (l.filter (fun i => i != 15)) cs
    Cond.passed .al s.cpsr = true ∧ Names s 0 .r0 ∧ (0 : Reg) ≠ 15 ∧
    ((0x4006 : BitVec 16) ≠ 0 ∧ (0x4006 : BitVec 16).getLsbD (0 : Reg).toNat = false ∧
      (0x4006 : BitVec 16).getLsbD 15 = false ∧ named s.cpsr.mode (regList 0x4006) [.r1, .r2, .r14svc]) ∧
    (hasSpsr s.cpsr.mode = true ∧ named 0x10 (regList 0x4006) [.r1, .r2, .r14usr]) ∧
    ((0x8001 : BitVec 16) ≠ 0 ∧ (0x8001 : BitVec 16).getLsbD 15 = true ∧ named s.cpsr.mode (regList 0x8001) [.r0]) ∧
    (hasSpsr arm.cpsr.mode = false ∧ Cond.passed .al arm.cpsr = true ∧ Names arm 3 .r3 ∧
      (0x8001 : BitVec 16).getLsbD (3 : Reg).toNat = false ∧ named arm.cpsr.mode (regList 0x8001) [.r0]) := by
  refine ⟨rfl, rfl, by decide, ⟨by decide, rfl, rfl, ?_⟩, ⟨rfl, ?_⟩, ⟨by decide, rfl, ?_⟩, rfl, rfl, rfl, rfl, ?_⟩
  · exact .cons rfl (.cons rfl (.cons rfl .nil))
  · exact .cons rfl (.cons rfl (.cons rfl .nil))
  · exact .cons rfl .nil
  · exact .cons rfl .nil

/-- BlockStore: the base as the lowest listed register with write-back, and R15; the user bank. -/
theorem witness_blockStore :
    let s := State.reset
    let value := fun (bank : ModeBits) (i : Reg) (v : Word) =>
      if i = 15 then v = (if s.config.pcReadExtra = .four then s.regs.pc + 4 else s.regs.pc)
      else ∃ cell, resolve bank i.toNat = .ok cell ∧ v = s.regs.read cell
    Cond.passed .al s.cpsr = true ∧ Names s 0 .r0 ∧ (0 : Reg) ≠ 15 ∧ (0x8001 : BitVec 16) ≠ 0 ∧
    ((0x8001 : BitVec 16).getLsbD (0 : Reg).toNat = true ∧ (regList 0x8001).head? = some 0) ∧
    List.Forall₂ (value s.cpsr.mode) (regList 0x8001) [0, 0] ∧ hasSpsr s.cpsr.mode = true ∧
    List.Forall₂ (value 0x10) (regList 0x2000) [0] := by
  refine ⟨rfl, rfl, by decide, by decide, ⟨rfl, rfl⟩, ?_, rfl, ?_⟩
  · exact .cons ⟨.r0, rfl, rfl⟩ (.cons rfl .nil)
  · exact .cons ⟨.r13usr, rfl, rfl⟩ .nil

/-- BlockFaults: each case with the earlier ones false. -/
theorem witness_blockFaults :
    Cond.passed .al arm.cpsr = true ∧ (3 : Reg) ≠ 15 ∧ (8 : BitVec 16) ≠ 0 ∧
    (true && !(true && (8 : BitVec 16).getLsbD 15)) = true ∧ hasSpsr arm.cpsr.mode = false ∧
    (false && !(true && (8 : BitVec 16).getLsbD 15)) = false ∧ (8 : BitVec 16).getLsbD (3 : Reg).toNat = true ∧
    (true && !(true && (0x8008 : BitVec 16).getLsbD 15)) = false ∧
    ((10 : BitVec 16).getLsbD (3 : Reg).toNat = true ∧ (regList 10).head? ≠ some 3) := by decide

/-- RaisingInstructions: an ARM and a Thumb one, and the three policies. -/
theorem witness_raising :
    raises (.swi .al 0) = some .softwareInterrupt ∧ armCond (.swi .al 0) = some .al ∧ Cond.passed .al arm.cpsr = true ∧
    raises (.tUndefinedB 0x100) = some .undefinedInstruction ∧ armCond (.tUndefinedB 0x100) = none ∧
    arm.config.excPolicy = .noop ∧ (policy .trap arm).config.excPolicy = .trap ∧
    (policy .fault arm).config.excPolicy = .fault := by decide

/-- SoftwareInterruptReturns, from both states. -/
theorem witness_swiReturns :
    (policy .trap arm).config.excPolicy = .trap ∧ (policy .trap thumb).config.excPolicy = .trap := ⟨rfl, rfl⟩

/-- ThumbArithmetic: a result and a comparison. -/
theorem witness_thumbArithmetic :
    thumbAlu (.tSubImm3 7 1 0) (fun r => thumb.regs.read (lowCell r)) thumb.cpsr =
      some (.sub, thumb.regs.read .r1, 7, false, 0) ∧
    thumbAlu (.tCmpReg 1 7) (fun r => thumb.regs.read (lowCell r)) thumb.cpsr =
      some (.cmp, thumb.regs.read .r7, thumb.regs.read .r1, false, 7) := by decide

/-- ThumbMultiply: the two clauses. -/
theorem witness_thumbMultiply : (0 : LowReg) ≠ 1 ∧ (7 : LowReg) = 7 := by decide

/-- ThumbHighRegisters: R15 as the destination; two low registers. -/
theorem witness_thumbHigh :
    (Names thumb (BitVec.ofBool true ++ (6 : LowReg)) .r14usr ∧ Names thumb (BitVec.ofBool true ++ (7 : LowReg)) .pc ∧
      (true || true) = true) ∧
    (Names thumb (BitVec.ofBool false ++ (6 : LowReg)) .r6 ∧ Names thumb (BitVec.ofBool false ++ (7 : LowReg)) .r7 ∧
      (false || false) = false) :=
  ⟨⟨rfl, rfl, rfl⟩, rfl, rfl, rfl⟩

/-- ThumbLoads: relative to the stack pointer, and at an odd address. -/
theorem witness_thumbLoads :
    (usesStackPointer (.tLdrSp 7 255) = true ∧ readReg 13 thumb = .ok 0 ∧
      thumbLoad (.tLdrSp 7 255) (fun r => thumb.regs.read (lowCell r)) 0 thumb.regs.pc = some (.word, 7, 1020)) ∧
    (usesStackPointer (.tLdsh 0 1 2) = false ∧
      thumbLoad (.tLdsh 0 1 2) (fun r => (put [(.r1, 1)] thumb).regs.read (lowCell r)) 0 thumb.regs.pc =
        some (.signedHalf, 2, 1)) :=
  ⟨⟨rfl, rfl, rfl⟩, rfl, rfl⟩

/-- ThumbStores: relative to the stack pointer, and of a byte. -/
theorem witness_thumbStores :
    (usesStackPointer (.tStrSp 7 255) = true ∧ readReg 13 thumb = .ok 0 ∧
      thumbStore (.tStrSp 7 255) (fun r => thumb.regs.read (lowCell r)) 0 = some (.word, 7, 1020)) ∧
    (usesStackPointer (.tStrbImm 31 1 2) = false ∧
      thumbStore (.tStrbImm 31 1 2) (fun r => thumb.regs.read (lowCell r)) 0 = some (.byte, 2, 31)) :=
  ⟨⟨rfl, rfl, rfl⟩, rfl, rfl⟩

/-- ThumbAddresses, ThumbStack and ThumbBranches: the stack pointer and the link register are named. -/
theorem witness_thumbStackPointer : Names thumb 13 .r13usr ∧ Names thumb 14 .r14usr := ⟨rfl, rfl⟩

/-- ThumbStack: the full list, LR alone, no R bit with a list, and the empty list. -/
theorem witness_thumbStack :
    (true = true ∨ (0xFF : BitVec 8) ≠ 0) ∧ (true = true ∨ (0 : BitVec 8) ≠ 0) ∧ (0x80 : BitVec 8) ≠ 0 ∧
    (0 : BitVec 8) = 0 := by decide

/-- ThumbMultiple: a list without the base, one whose lowest register is the base, one whose base is not the lowest. -/
theorem witness_thumbMultiple :
    ((6 : BitVec 8) ≠ 0 ∧ (6 : BitVec 8).getLsbD (0 : LowReg).toNat = false) ∧
    ((6 : BitVec 8).getLsbD (1 : LowReg).toNat = true ∧ ∀ j : Nat, j < (1 : LowReg).toNat → (6 : BitVec 8).getLsbD j = false) ∧
    ((6 : BitVec 8).getLsbD (2 : LowReg).toNat = true ∧ 1 < (2 : LowReg).toNat ∧ (6 : BitVec 8).getLsbD 1 = true) := by decide

/-- ThumbBranches: BEQ with Z = 1 and with Z = 0. -/
theorem witness_thumbBranches :
    Cond.passed .eq (flags false true false false thumb).cpsr = true ∧ Cond.passed .eq thumb.cpsr = false := by decide

/-- RegisterFrame: a post-indexed load, and a register it does not write. -/
theorem witness_registerFrame :
    let i : Instr := .ldr .al false true false 1 0 (.imm 4)
    (∃ t, exec i arm = .next t) ∧ raises i = none ∧ RegCell.r2 ≠ .pc ∧
      ∀ r ∈ destRegs i, resolve (destMode i arm) r.toNat ≠ .ok .r2 := by
  refine ⟨next_of_isSome (by decide), rfl, by decide, fun r hr => ?_⟩
  rcases List.mem_cons.mp hr with rfl | hr
  · exact fun h => nomatch h
  · rw [List.mem_singleton.mp hr]
    exact fun h => nomatch h

/-- MemoryFrame: a store, with a byte outside it, and an instruction that stores nothing. -/
theorem witness_memoryFrame :
    let s := put [(.r1, 0x03000102)] arm
    (∃ t, exec (.str .al true true false 1 0 (.imm 4)) s = .next t) ∧
    0x03000108 ∉ storeCells (.str .al true true false 1 0 (.imm 4)) s ∧
    (∃ t, exec (.cmpImm .al 1 0 0) s = .next t) ∧ storeCells (.cmpImm .al 1 0 0) s = [] :=
  ⟨next_of_isSome (by decide), by decide, next_of_isSome (by decide), rfl⟩

/-- StatusFrame: a comparison, which reads no memory. -/
theorem witness_statusFrame :
    (∃ t, exec (.cmpImm .al 1 0 0) arm = .next t) ∧ raises (.cmpImm .al 1 0 0) = none ∧
    readsMemory (.cmpImm .al 1 0 0) = false :=
  ⟨next_of_isSome (by decide), rfl, rfl⟩

/-- OnlyAFlushMovesPc: an instruction of each kind. -/
theorem witness_onlyAFlush :
    (∃ t, exec (.cmpImm .al 1 0 0) arm = .next t) ∧ (∃ t, exec (.b .al 0) arm = .next t) ∧
    arm.flushRequested = false :=
  ⟨next_of_isSome (by decide), next_of_isSome (by decide), rfl⟩

/-- StepKeepsInv and BootRomIsConstant: a primed machine about to run MOV R0, R0. -/
theorem witness_stepKeepsInv :
    let s := initializeForExecution (store [(0x03000000, 0xE1A00000)] (put [(.pc, 0x03000000)] State.reset))
    Inv s ∧ ∃ t, step s = .next t := by
  refine ⟨⟨?_, ?_, fun _ => ?_, rfl, rfl⟩, next_of_isSome (by decide)⟩
  · unfold MemCanonical
    decide
  · unfold PcAligned
    decide
  · decide

/-- UserModeIsConfined: a step in User mode that stays there, and one that an exception takes out of it. -/
theorem witness_userMode :
    let s := slot 0xE129F000 (inMode 0x10 arm)
    let t := slot 0xEF000000 (policy .trap (inMode 0x10 arm))
    (s.cpsr.mode = 0x10 ∧ ∃ u, step s = .next u) ∧
    (t.cpsr.mode = 0x10 ∧ executingInstr t = some (.swi .al 0) ∧ raises (.swi .al 0) ≠ none ∧ ∃ u, step t = .next u) :=
  ⟨⟨rfl, next_of_isSome (by decide)⟩, rfl, by decide, by decide, next_of_isSome (by decide)⟩

/-- SelfBranchRepeats: the word 0xEAFFFFFE at 0x03000000, and the halfword 0xE7FE at 0x03000002. -/
theorem witness_selfBranch :
    let s := slot 0xEAFFFFFE (store [(0x03000000, 0xEAFFFFFE)] (put [(.pc, 0x03000008)] arm))
    s.faulted = none ∧ s.primed = true ∧ FlushQuiet s ∧ PcAligned s ∧ atSelfBranch s = true ∧
    (s.config.excPolicy = .fault → pendingInterrupt s = none) ∧ s.cpsr.t = false ∧
    (∀ j : Nat, j < 4 → readCell s (s.regs.pc - 8 + BitVec.ofNat 32 j) = some (0x03000000 + j)) ∧
    s.mem.read 0x03000003 ++ s.mem.read 0x03000002 ++ s.mem.read 0x03000001 ++ s.mem.read 0x03000000 = 0xEAFFFFFE#32 := by
  refine ⟨rfl, rfl, ⟨rfl, rfl⟩, ?_, by decide, fun _ => rfl, rfl, fun j hj => ?_, by decide⟩
  · unfold PcAligned
    decide
  · interval_cases j <;> decide

theorem witness_selfBranch_thumb :
    let s := { store [(0x03000000, 0xE7FE0000)] (put [(.pc, 0x03000006)] thumb) with thExecuting := some 0xE7FE }
    s.faulted = none ∧ s.primed = true ∧ FlushQuiet s ∧ PcAligned s ∧ atSelfBranch s = true ∧
    (s.config.excPolicy = .fault → pendingInterrupt s = none) ∧ s.cpsr.t = true ∧
    (∀ j : Nat, j < 2 → readCell s (s.regs.pc - 4 + BitVec.ofNat 32 j) = some (0x03000002 + j)) ∧
    s.mem.read 0x03000003 ++ s.mem.read 0x03000002 = 0xE7FE#16 := by
  refine ⟨rfl, rfl, ⟨rfl, rfl⟩, ?_, by decide, fun _ => rfl, rfl, fun j hj => ?_, by decide⟩
  · unfold PcAligned
    decide
  · interval_cases j <;> decide

end Sys2Proof.Tests
end

section
/-!
PROOFS. Register access (`10_state.md` R62 to R65): the word each index names, case by case, and the accesses that fault.
-/

namespace Sys2Proof.Machine

/-! ### Which word an index names -/

theorem toNat_lowReg (i : LowReg) : (lowReg i).toNat = i.toNat := by
  revert i
  decide

theorem resolve_of_lowReg (m : ModeBits) (i : LowReg) : resolve m i.toNat = .ok (lowCell i) := by
  rw [← toNat_lowReg]
  exact resolve_lowReg m i

/-- FIQ mode has words of its own for R8 to R12 (`10_state.md` R62). -/
theorem resolve_8_to_12_fiq :
    resolve fiqMode 8 = .ok .r8fiq ∧ resolve fiqMode 9 = .ok .r9fiq ∧ resolve fiqMode 10 = .ok .r10fiq ∧
      resolve fiqMode 11 = .ok .r11fiq ∧ resolve fiqMode 12 = .ok .r12fiq :=
  ⟨rfl, rfl, rfl, rfl, rfl⟩

/-- Every other mode code, valid or not, shares the User mode's R8 to R12 (`10_state.md` R62, R65). -/
theorem resolve_8_to_12_of_ne_fiq {m : ModeBits} (h : m ≠ fiqMode) :
    resolve m 8 = .ok .r8usr ∧ resolve m 9 = .ok .r9usr ∧ resolve m 10 = .ok .r10usr ∧
      resolve m 11 = .ok .r11usr ∧ resolve m 12 = .ok .r12usr := by
  simp [resolve, h]

/-- Indices 13 and 14 name the words of the mode's bank (`10_state.md` R62, R63). -/
theorem resolve_13_14_of_bank {m : ModeBits} {b : Bank} (h : bankOf m = some b) :
    resolve m 13 = .ok b.r13 ∧ resolve m 14 = .ok b.r14 := by
  simp [resolve, h]

/-- A mode code without a bank gives indices 13 and 14 no word (`10_state.md` R65). -/
theorem resolve_13_14_of_no_bank {m : ModeBits} (h : bankOf m = none) :
    resolve m 13 = .error (.invalidMode m) ∧ resolve m 14 = .error (.invalidMode m) := by
  simp [resolve, h]

/-- The mode codes without a bank are those outside the seven of `10_state.md` R53. -/
theorem bankOf_eq_none_iff (m : ModeBits) :
    bankOf m = none ↔ m ∉ ([0x10, 0x11, 0x12, 0x13, 0x17, 0x1B, 0x1F] : List ModeBits) := by
  revert m
  decide

theorem resolve_above_15 (m : ModeBits) {i : Nat} (h : 15 < i) :
    resolve m i = .error (.invalidRegisterIndex i) := by
  obtain ⟨n, rfl⟩ := Nat.exists_eq_add_of_le' (show 16 ≤ i from h)
  rfl

/-! ### Accesses that fault -/

theorem cellOf_of_error {m : ModeBits} {i : Reg} {r : FaultReason} (s : State)
    (h : resolve m i.toNat = .error r) : cellOf m i s = .error (stop r s) := by
  unfold cellOf
  rw [h]

/-- A read of an index that names no word faults with the reason `resolve` gives. -/
theorem readReg_of_error {i : Reg} {r : FaultReason} {s : State}
    (h : resolve s.cpsr.mode i.toNat = .error r) : readReg i s = .error (stop r s) := by
  unfold readReg readRegAs
  rw [cellOf_of_error s h, except_error_bind]

/-- A write of an index that names no word faults with the same reason. Index 15 always names one. -/
theorem writeReg_of_error {i : Reg} {r : FaultReason} {s : State} (v : Word)
    (h : resolve s.cpsr.mode i.toNat = .error r) : writeReg i v s = .error (stop r s) := by
  have hi : i ≠ 15 := by
    rintro rfl
    rw [resolve_15] at h
    cases h
  unfold writeReg writeRegAs
  rw [if_neg hi, cellOf_of_error s h, except_error_bind]

/-- Under an invalid mode code every access to index 13 or 14 faults (`10_state.md` R65). -/
theorem access_13_14_of_no_bank {s : State} (h : bankOf s.cpsr.mode = none) (v : Word) :
    readReg 13 s = .error (stop (.invalidMode s.cpsr.mode) s) ∧
    readReg 14 s = .error (stop (.invalidMode s.cpsr.mode) s) ∧
    writeReg 13 v s = .error (stop (.invalidMode s.cpsr.mode) s) ∧
    writeReg 14 v s = .error (stop (.invalidMode s.cpsr.mode) s) := by
  obtain ⟨h13, h14⟩ := resolve_13_14_of_no_bank h
  exact ⟨readReg_of_error h13, readReg_of_error h14, writeReg_of_error v h13, writeReg_of_error v h14⟩

/-- Settles O18: each index by the case of `resolve` it falls under, indices 13 and 14 by the bank of the mode code. -/
theorem registerBanks : Obligations.RegisterBanks := by
  unfold Obligations.RegisterBanks
  intro m
  have bank {k : ModeBits} {b : Bank} (hb : bankOf k = some b) (hm : m = k) :
      resolve m 13 = .ok b.r13 ∧ resolve m 14 = .ok b.r14 :=
    resolve_13_14_of_bank (hm ▸ hb)
  refine ⟨resolve_of_lowReg m, ?fiq, resolve_8_to_12_of_ne_fiq, ?usr,
    bank (b := .fiq) rfl, bank (b := .irq) rfl, bank (b := .svc) rfl, bank (b := .abt) rfl, bank (b := .und) rfl,
    ?invalid, rfl, fun _ => resolve_above_15 m⟩
  case fiq =>
    rintro rfl
    exact resolve_8_to_12_fiq
  case usr =>
    rintro (hUser | hSystem)
    · exact bank (b := .usr) rfl hUser
    · exact bank (b := .usr) rfl hSystem
  case invalid =>
    intro hm
    have hb : bankOf m = none := (bankOf_eq_none_iff m).mpr hm
    obtain ⟨h13, h14⟩ := resolve_13_14_of_no_bank hb
    refine ⟨h13, h14, ?_⟩
    rintro s v rfl
    exact access_13_14_of_no_bank hb v

end Sys2Proof.Machine
end

section
/-!
PROOFS. Memory (`20_memory.md` R169 to R187): what one byte access does, and the wide accesses as byte accesses.
-/

namespace Sys2Proof.Machine

/-! ### One byte -/

/-- A read served from storage answers the stored byte and sets the latch to it (`20_memory.md` R169). -/
theorem readByte_of_cell {s : State} {a : Word} {k : Nat} (h : readCell s a = some k) :
    readByte a s = (s.mem.read k, { s with openBusLatch := s.mem.read k }) := by
  simp only [readByte, h]

/-- An open-bus read answers the latch and changes nothing (`20_memory.md` R170). -/
theorem readByte_of_openBus {s : State} {a : Word} (h : readCell s a = none) :
    readByte a s = (s.openBusLatch, s) := by
  simp only [readByte, h]

theorem writeByte_of_cell {s : State} {a : Word} {k : Nat} (b : Byte) (h : writeCell s a = some k) :
    writeByte a b s = { s with mem := s.mem.write k b } := by
  simp only [writeByte, h]

/-- A write without storage is discarded (`20_memory.md` R172). -/
theorem writeByte_of_discarded {s : State} {a : Word} (b : Byte) (h : writeCell s a = none) :
    writeByte a b s = s := by
  simp only [writeByte, h]

/-- A stored byte reads back. -/
theorem read_writeByte_self {s : State} {a : Word} {k : Nat} (b : Byte) (hs : MemCanonical s)
    (h : writeCell s a = some k) : (writeByte a b s).mem.read k = b := by
  rw [writeByte_of_cell b h]
  exact Memory.read_write_self s.mem k b hs

/-- A byte write leaves every storage address but its own. -/
theorem read_writeByte_of_ne {s : State} {a : Word} {k : Nat} (b : Byte) (h : writeCell s a ≠ some k) :
    (writeByte a b s).mem.read k = s.mem.read k := by
  obtain ⟨m, hm, hframe, -⟩ := writeByte_onlyStores a b s
  rw [hm]
  exact hframe k fun hk => h (Option.mem_toList.mp hk)

theorem writeByte_canonical {s : State} (a : Word) (b : Byte) (hs : MemCanonical s) :
    MemCanonical (writeByte a b s) := by
  obtain ⟨m, hm, -, hcanonical⟩ := writeByte_onlyStores a b s
  rw [hm]
  exact hcanonical hs

/-- Settles O15: reads by whether storage serves them, writes by the frame of `writeByte_onlyStores` and the byte
store's read after a write. -/
theorem byteAccess : Obligations.ByteAccess := by
  unfold Obligations.ByteAccess
  intro s a b
  have hmem : ∃ m, writeByte a b s = { s with mem := m } := by
    obtain ⟨m, hm, -, -⟩ := writeByte_onlyStores a b s
    exact ⟨m, hm⟩
  exact ⟨fun _ => readByte_of_cell, readByte_of_openBus, congrArg Prod.fst (readByte_eq a s).symm, hmem,
    fun hs => ⟨writeByte_canonical a b hs, fun _ => read_writeByte_self b hs⟩,
    fun _ => read_writeByte_of_ne b, writeByte_of_discarded b⟩

/-! ### Alignment and rotation of the wide accesses -/

theorem alignWord_eq (a : Word) : alignWord a = a &&& ~~~3#32 := rfl

theorem alignHalf_eq (a : Word) : alignHalf a = a &&& ~~~1#32 := rfl

theorem wordSkew_eq (a : Word) : wordSkew a = 8 * (a.toNat % 4) := by
  simp [wordSkew]

/-- Only an odd address turns the halfword read there (`20_memory.md` R182). -/
theorem rotateRight_halfSkew (a x : Word) :
    x.rotateRight (8 * (a.extractLsb' 0 1).toNat) = if a.toNat % 2 = 0 then x else x.rotateRight 8 := by
  have hskew : (a.extractLsb' 0 1).toNat = a.toNat % 2 := by simp
  rw [hskew]
  rcases Nat.mod_two_eq_zero_or_one a.toNat with heven | hodd
  · rw [heven, if_pos rfl]
    simp [BitVec.rotateRight_def]
  · rw [hodd, if_neg one_ne_zero]

/-! ### Bytes laid end to end, the lowest address lowest -/

/-- `lo` below `hi` is `hi` moved up by the width of `lo`. -/
theorem zeroExtend_append {n m : Nat} (hi : BitVec n) (lo : BitVec m) :
    (hi ++ lo).zeroExtend 32 = lo.zeroExtend 32 ||| (hi.zeroExtend 32 <<< m) :=
  BitVec.setWidth_append_eq_shiftLeft_setWidth_or.trans (BitVec.or_comm _ _)

theorem append_bytes_eq_word (b3 b2 b1 b0 : Byte) :
    b3 ++ b2 ++ b1 ++ b0 = b0.zeroExtend 32 ||| (b1.zeroExtend 32 <<< 8) ||| (b2.zeroExtend 32 <<< 16) |||
      (b3.zeroExtend 32 <<< 24) :=
  calc b3 ++ b2 ++ b1 ++ b0
      = (b3 ++ b2 ++ b1 ++ b0).zeroExtend 32 := (BitVec.setWidth_eq _).symm
    _ = b0.zeroExtend 32 ||| (b1.zeroExtend 32 ||| (b2.zeroExtend 32 ||| b3.zeroExtend 32 <<< 8) <<< 8) <<< 8 := by
      rw [zeroExtend_append, zeroExtend_append, zeroExtend_append]
    _ = _ := by
      simp only [BitVec.shiftLeft_or_distrib, ← BitVec.shiftLeft_add, BitVec.or_assoc, Nat.reduceAdd]

/-- Settles O16: the bytes of a read laid end to end (`append_bytes_eq_word`, `zeroExtend_append`), then turned by the low
bits of the address; a store is its byte writes at the aligned address. -/
theorem wideAccess : Obligations.WideAccess := by
  unfold Obligations.WideAccess
  intro s a v
  refine ⟨?read32, ?read16, rfl, ?write32, rfl, rfl⟩
  case read32 => simp only [read32, alignWord_eq, append_bytes_eq_word, wordSkew_eq]
  case read16 => simp only [read16, alignHalf_eq, zeroExtend_append, rotateRight_halfSkew]
  case write32 => simp only [write32, storedWord, alignWord_eq, wordSkew_eq]

end Sys2Proof.Machine
end

section
/-!
PROOFS. The step (`40_pipeline.md` R352 to R368): what a condition code tests, what an ARM instruction whose condition fails
does, how a step without a flush ends, and the writes of the program counter.
-/

namespace Sys2Proof.Machine

/-! ### Condition codes -/

/-- Settles O4: eight codes test one flag, set or clear; the ordering codes test the carry with the zero flag, or whether the
negative and overflow flags agree; the last two test nothing. -/
theorem conditionTable : Obligations.ConditionTable := by
  unfold Obligations.ConditionTable
  intro p
  have clear {b : Bool} : (!b) = true ↔ b = false := iff_of_eq (Bool.not_eq_true' b)
  refine ⟨Iff.rfl, clear, Iff.rfl, clear, Iff.rfl, clear, Iff.rfl, clear,
    ?higher, ?lowerOrSame, beq_iff_eq, bne_iff_ne, ?greater, ?lessOrEqual, rfl, rfl⟩
  case higher => exact Bool.and_eq_true_iff.trans (and_congr Iff.rfl clear)
  case lowerOrSame => exact Bool.or_eq_true_iff.trans (or_congr clear Iff.rfl)
  case greater => exact Bool.and_eq_true_iff.trans (and_congr clear beq_iff_eq)
  case lessOrEqual => exact Bool.or_eq_true_iff.trans (or_congr Iff.rfl bne_iff_ne)

/-! ### Writes of the program counter -/

/-- The alignment of a program-counter write clears the address bits below the active width (`44_arm_branch.md` R556). -/
theorem alignPc_eq (t : Bool) (v : Word) : alignPc t v = if t then v &&& ~~~1#32 else v &&& ~~~3#32 := rfl

theorem readReg_15_writePc (v : Word) (s : State) : readReg 15 (writePc v s) = .ok (alignPc s.cpsr.t v) := by
  simp only [readReg_15, writePc_regs, RegBank.write_pc_pc]

/-- Settles O19: index 15 is read and written as the program counter (`readReg_15_writePc`, `writeReg_15`), another index as
the word it names (`writeReg_of_names`). -/
theorem registerWrites : Obligations.RegisterWrites := by
  unfold Obligations.RegisterWrites
  intro s v
  rw [← alignPc_eq]
  exact ⟨rfl, readReg_15_writePc v s, writeReg_15 v s, fun _ _ => writeReg_of_names v⟩

/-! ### Failed conditions -/

/-- Every ARM instruction runs its handler under its condition (`40_pipeline.md` R352); the Thumb cases fall away, as they have
no condition. -/
theorem exec_eq_whenPassed {i : Instr} {c : Cond} (hc : armCond i = some c) (s : State) :
    ∃ handler, exec i s = whenPassed c s handler := by
  cases i <;> cases hc <;> exact ⟨_, rfl⟩

/-- An ARM instruction whose condition fails leaves the state as it is (`40_pipeline.md` R368). -/
theorem exec_of_failed {i : Instr} {c : Cond} {s : State} (hc : armCond i = some c)
    (hfail : Cond.passed c s.cpsr = false) : exec i s = .next s := by
  obtain ⟨handler, hexec⟩ := exec_eq_whenPassed hc s
  rw [hexec, whenPassed_of_failed hfail]

/-! ### A step without an interrupt -/

/-- Without an interrupt that the policy heeds, a step runs the instruction in the executing slot (`40_pipeline.md` R352). -/
theorem dispatch_of_executing {run : Instr → State → Answer} {i : Instr} {s : State} (hi : executingInstr s = some i)
    (hquiet : s.config.excPolicy = .noop ∨ pendingInterrupt s = none) : dispatch run s = run i s := by
  unfold dispatch
  rw [hi]
  rcases hquiet with hnoop | hnone
  · rw [hnoop]
    cases pendingInterrupt s <;> rfl
  · rw [hnone]
    cases s.config.excPolicy <;> rfl

/-- A step whose instruction answers a next state ends from that state (`40_pipeline.md` R352). -/
theorem step_of_exec_next {i : Instr} {s t : State} (hfault : s.faulted = none) (hprimed : s.primed = true)
    (hi : executingInstr s = some i) (hquiet : s.config.excPolicy = .noop ∨ pendingInterrupt s = none)
    (hexec : exec i { s with flushRequested := false } = .next t) : step s = .next (finishStep t) := by
  have hrun : dispatch exec { s with flushRequested := false } = .next t :=
    (dispatch_of_executing (s := { s with flushRequested := false }) hi hquiet).trans hexec
  unfold step stepWith
  rw [hrun, hfault, hprimed, if_pos rfl]

/-- Where no flush was requested or came, a step ends by the advance (`40_pipeline.md` R354, R355). -/
theorem finishStep_of_no_flush {s : State} (hreq : s.flushRequested = false) (hflag : s.flushFlag = false) :
    finishStep s = advance s := by
  have hs : { s with flushRequested := false } = s := by rw [← hreq]
  have hkept : (if s.flushRequested then flush s else s) = s := if_neg (by simp [hreq])
  dsimp only [finishStep]
  rw [hkept]
  exact (if_neg (by simp [hflag])).trans (congrArg advance hs)

/-- Settles O5: the failed condition shuts out the handler (`exec_of_failed`), so the step ends from the state it began in,
where no flush is requested (`step_of_exec_next`, `finishStep_of_no_flush`). -/
theorem failedConditionOnlyAdvances : Obligations.FailedConditionOnlyAdvances := by
  unfold Obligations.FailedConditionOnlyAdvances
  intro i c s hc hfail
  refine ⟨exec_of_failed hc hfail, fun hfault hprimed hflag hi hquiet => ?_⟩
  have hexec : exec i { s with flushRequested := false } = .next { s with flushRequested := false } :=
    exec_of_failed hc hfail
  have hend : finishStep { s with flushRequested := false } = advance { s with flushRequested := false } :=
    finishStep_of_no_flush rfl hflag
  rw [step_of_exec_next hfault hprimed hi hquiet hexec, hend]

end Sys2Proof.Machine
end

section
/-!
PROOFS. The barrel shifter and the ALU (`41_shifter_alu.md` R403 to R419): the shifts by a register's low byte, the shifts by
an immediate amount as the same shifts but for amount 0, and the result and flags of a data-processing instruction.
-/

namespace Sys2Proof.Machine

/-! ### Shifts by a register's low byte -/

theorem shiftReg_of_zero {k : ShiftKind} {a : Byte} (v : Word) (c : Bool) (h : a.toNat = 0) :
    shiftReg k a v c = { value := v, carry := c } := if_pos h

/-- A left shift by 1 to 31 multiplies modulo 2^32; the last bit moved out is the carry (`41_shifter_alu.md` R408). -/
theorem shiftReg_lsl_of_le_31 {a : Byte} (v : Word) (c : Bool) (h1 : 1 ≤ a.toNat) (h31 : a.toNat ≤ 31) :
    (shiftReg .lsl a v c).value.toNat = v.toNat * 2 ^ a.toNat % 2 ^ 32 ∧
    (shiftReg .lsl a v c).carry = v.getLsbD (32 - a.toNat) := by
  have hshift : shiftReg .lsl a v c = { value := v <<< a.toNat, carry := v.getLsbD (32 - a.toNat) } :=
    (if_neg (Nat.ne_of_gt h1)).trans (if_pos h31)
  rw [hshift, BitVec.toNat_shiftLeft, Nat.shiftLeft_eq]
  exact ⟨rfl, rfl⟩

/-- A logical right shift by 1 to 31 divides the unsigned number (`41_shifter_alu.md` R409). -/
theorem shiftReg_lsr_of_le_31 {a : Byte} (v : Word) (c : Bool) (h1 : 1 ≤ a.toNat) (h31 : a.toNat ≤ 31) :
    (shiftReg .lsr a v c).value.toNat = v.toNat / 2 ^ a.toNat ∧
    (shiftReg .lsr a v c).carry = v.getLsbD (a.toNat - 1) := by
  have hshift : shiftReg .lsr a v c = { value := v >>> a.toNat, carry := v.getLsbD (a.toNat - 1) } :=
    (if_neg (Nat.ne_of_gt h1)).trans (if_pos h31)
  rw [hshift, BitVec.toNat_ushiftRight, Nat.shiftRight_eq_div_pow]
  exact ⟨rfl, rfl⟩

/-- An arithmetic right shift by 1 to 31 divides the signed number, rounding down (`41_shifter_alu.md` R410). -/
theorem shiftReg_asr_of_le_31 {a : Byte} (v : Word) (c : Bool) (h1 : 1 ≤ a.toNat) (h31 : a.toNat ≤ 31) :
    (shiftReg .asr a v c).value.toInt = v.toInt / 2 ^ a.toNat ∧
    (shiftReg .asr a v c).carry = v.getLsbD (a.toNat - 1) := by
  have hshift : shiftReg .asr a v c = { value := v.sshiftRight a.toNat, carry := v.getLsbD (a.toNat - 1) } :=
    (if_neg (Nat.ne_of_gt h1)).trans (if_pos h31)
  rw [hshift, BitVec.toInt_sshiftRight, Int.shiftRight_eq_div_pow]
  exact ⟨rfl, rfl⟩

/-- From 32 on an arithmetic right shift leaves the sign alone (`41_shifter_alu.md` R410). -/
theorem shiftReg_asr_of_32_le {a : Byte} (v : Word) (c : Bool) (h : 32 ≤ a.toNat) :
    shiftReg .asr a v c = { value := if v.getLsbD 31 then 0xFFFFFFFF else 0, carry := v.getLsbD 31 } :=
  (if_neg (by omega)).trans (if_neg (by omega))

/-- Past 32 the logical shifts leave neither value nor carry (`41_shifter_alu.md` R408, R409). -/
theorem shiftReg_logical_of_32_lt {a : Byte} (v : Word) (c : Bool) (h : 32 < a.toNat) :
    shiftReg .lsl a v c = { value := 0, carry := false } ∧ shiftReg .lsr a v c = { value := 0, carry := false } := by
  have h0 : a.toNat ≠ 0 := by omega
  have h31 : ¬a.toNat ≤ 31 := by omega
  have h32 : a.toNat ≠ 32 := by omega
  constructor <;> simp only [shiftReg, h0, h31, h32, if_false]

/-- By 32 the last bit moved out is still the carry (`41_shifter_alu.md` R408, R409). -/
theorem shiftReg_logical_of_eq_32 {a : Byte} (v : Word) (c : Bool) (h : a.toNat = 32) :
    shiftReg .lsl a v c = { value := 0, carry := v.getLsbD 0 } ∧
    shiftReg .lsr a v c = { value := 0, carry := v.getLsbD 31 } := by
  constructor <;> simp [shiftReg, h]

/-- A rotation by a multiple of 32 leaves the word, and its carry is bit 31 (`41_shifter_alu.md` R411). -/
theorem shiftReg_ror_of_mod_eq_zero {a : Byte} (v : Word) (c : Bool) (h1 : 1 ≤ a.toNat) (h : a.toNat % 32 = 0) :
    shiftReg .ror a v c = { value := v, carry := v.getLsbD 31 } :=
  (if_neg (Nat.ne_of_gt h1)).trans (if_pos h)

/-- Bit `j` of a rotation to the right is the bit `r` above it, past bit 31 from bit 0 on. -/
theorem getLsbD_rotateRight_eq (v : Word) {j r : Nat} (hj : j < 32) :
    (v.rotateRight r).getLsbD j = v.getLsbD ((j + r) % 32) := by
  rw [BitVec.getLsbD_rotateRight, Bool.cond_decide, decide_eq_true hj, Bool.true_and]
  split
  · exact congrArg v.getLsbD (by omega)
  · exact congrArg v.getLsbD (by omega)

/-- Any other rotation moves each bit down by the amount, modulo 32 (`41_shifter_alu.md` R411). -/
theorem shiftReg_ror_of_mod_ne_zero {a : Byte} (v : Word) (c : Bool) (h : a.toNat % 32 ≠ 0) :
    (∀ j, j < 32 → (shiftReg .ror a v c).value.getLsbD j = v.getLsbD ((j + a.toNat) % 32)) ∧
    (shiftReg .ror a v c).carry = v.getLsbD (a.toNat % 32 - 1) := by
  have hshift : shiftReg .ror a v c =
      { value := v.rotateRight (a.toNat % 32), carry := v.getLsbD (a.toNat % 32 - 1) } :=
    (if_neg (by omega)).trans (if_neg h)
  rw [hshift]
  refine ⟨fun j hj => ?_, rfl⟩
  rw [getLsbD_rotateRight_eq v hj, Nat.add_mod_mod]

/-- Settles O21: each range of amounts by the branch of `shiftReg` it falls under, short shifts as arithmetic on the
word, rotations bit by bit. -/
theorem shiftByRegister : Obligations.ShiftByRegister := by
  unfold Obligations.ShiftByRegister
  intro k a v c
  refine ⟨shiftReg_of_zero v c, fun h1 h31 => ?short, shiftReg_logical_of_eq_32 v c, shiftReg_logical_of_32_lt v c,
    shiftReg_asr_of_32_le v c, shiftReg_ror_of_mod_eq_zero v c, shiftReg_ror_of_mod_ne_zero v c⟩
  case short =>
    obtain ⟨hlsl, hlslCarry⟩ := shiftReg_lsl_of_le_31 v c h1 h31
    obtain ⟨hlsr, hlsrCarry⟩ := shiftReg_lsr_of_le_31 v c h1 h31
    exact ⟨hlsl, hlslCarry, hlsr, hlsrCarry, shiftReg_asr_of_le_31 v c h1 h31⟩

/-! ### Shifts by an immediate amount -/

/-- Rotate-with-extend halves the word and puts the old carry above it (`41_shifter_alu.md` R406). -/
theorem rrx_value_toNat (v : Word) (c : Bool) : (rrx v c).value.toNat = c.toNat * 2 ^ 31 + v.toNat / 2 := by
  have hlow : v.toNat >>> 1 < 2 ^ 31 := by
    rw [Nat.shiftRight_eq_div_pow]
    omega
  have hhigh : (BitVec.ofBool c ++ 0#31).toNat = c.toNat <<< 31 := by cases c <;> rfl
  calc (rrx v c).value.toNat
      = c.toNat <<< 31 ||| v.toNat >>> 1 := by
        rw [← hhigh, ← BitVec.toNat_ushiftRight]
        exact BitVec.toNat_or ..
    _ = c.toNat <<< 31 + v.toNat >>> 1 := (Nat.shiftLeft_add_eq_or_of_lt hlow _).symm
    _ = c.toNat * 2 ^ 31 + v.toNat / 2 := by rw [Nat.shiftLeft_eq, Nat.shiftRight_eq_div_pow, pow_one]

/-- A 5-bit amount other than 0 is 1 to 31, in a byte as in its field. -/
theorem immediateAmount_range {n : BitVec 5} (hn : n ≠ 0) :
    (n.zeroExtend 8).toNat = n.toNat ∧ 1 ≤ n.toNat ∧ n.toNat ≤ 31 ∧ n.toNat % 32 = n.toNat :=
  ⟨BitVec.toNat_setWidth_of_le (by decide), Nat.pos_of_ne_zero fun h => hn (BitVec.eq_of_toNat_eq h),
    Nat.le_of_lt_succ n.isLt, Nat.mod_eq_of_lt n.isLt⟩

/-- Only amount 0 tells an immediate amount from a register's (`41_shifter_alu.md` R403 to R411). -/
theorem shiftImm_eq_shiftReg (k : ShiftKind) {n : BitVec 5} (v : Word) (c : Bool) (hn : n ≠ 0) :
    shiftImm k n v c = shiftReg k (n.zeroExtend 8) v c := by
  obtain ⟨hwide, h1, h31, hmod⟩ := immediateAmount_range hn
  have h0 : n.toNat ≠ 0 := Nat.ne_of_gt h1
  cases k <;> simp only [shiftImm, shiftReg, hwide, h0, h31, hmod, if_false, if_true]

/-- Settles O20: amount 0 by the meaning each kind gives it, every other amount as a register's (`shiftImm_eq_shiftReg`). -/
theorem shiftByImmediate : Obligations.ShiftByImmediate := by
  unfold Obligations.ShiftByImmediate
  intro n v c
  refine ⟨?zero, fun hn => ?nonzero⟩
  case zero =>
    rintro rfl
    exact ⟨rfl, rfl, rfl, rrx_value_toNat v c, rfl⟩
  case nonzero =>
    obtain ⟨hwide, h1, h31, hmod⟩ := immediateAmount_range hn
    obtain ⟨-, hshort, -, -, -, -, hror⟩ := shiftByRegister .ror (n.zeroExtend 8) v c
    simp only [hwide, hmod] at hshort hror
    simp only [shiftImm_eq_shiftReg _ v c hn]
    obtain ⟨hlsl, hlslCarry, hlsr, hlsrCarry, hasr, hasrCarry⟩ := hshort h1 h31
    exact ⟨hlsl, hlslCarry, hlsr, hlsrCarry, hasr, hasrCarry, hror (Nat.ne_of_gt h1)⟩

/-! ### Data processing -/

/-- The moves compute from operand 2 alone (`42_arm_data_processing.md` R473, R475). -/
theorem dpCompute_of_move {op : DpOp} (h : dpMove op = true) (a b sh : Word) (shc cin : Bool) :
    dpCompute op a sh shc cin = dpCompute op b sh shc cin := by
  cases op <;> cases h <;> rfl

/-- With its operands read, the skeleton is its last part on the computed sum (`42_arm_data_processing.md` R453). -/
theorem dataProcessing_of_operands {op : DpOp} {rn rd : Reg} {o : Operand2} {s : State} {cn : RegCell} {x : Shifted}
    (sf : Bool) (h15 : regShiftNamesR15 o rd rn = false) (hn : dpMove op = false → Names s rn cn)
    (hx : Operand2Is o s x) :
    dataProcessing op sf rn rd o s =
      dpFinish op sf rd (dpCompute op (s.regs.read cn) x.value x.carry s.cpsr.c) s := by
  simp only [dataProcessing, h15, failIf_false, operand2_of_is hx, except_ok_bind]
  cases hmove : dpMove op with
  | true =>
    rw [dpCompute_of_move hmove (s.regs.read cn) 0]
    rfl
  | false =>
    rw [readReg_of_names (hn hmove)]
    rfl

/-- A comparison's end looks at neither S nor Rd (`42_arm_data_processing.md` R454). -/
theorem dpFinish_of_comparison {op : DpOp} (h : dpComparison op = true) (sf : Bool) (rd : Reg) (x : Sum) (s : State) :
    dpFinish op sf rd x s = .ok { s with cpsr := dpFlags op x s.cpsr } := if_pos h

/-- The end of another opcode: the result into Rd, then with S = 1 the flags (`42_arm_data_processing.md` R453). -/
theorem dpFinish_of_names {op : DpOp} {rd : Reg} {cd : RegCell} {s : State} (h : dpComparison op = false) (h15 : rd ≠ 15)
    (hd : Names s rd cd) (sf : Bool) (x : Sum) :
    dpFinish op sf rd x s =
      .ok { s with regs := s.regs.write cd x.result, cpsr := if sf then dpFlags op x s.cpsr else s.cpsr } := by
  simp only [dpFinish, h, h15, writeReg_of_names x.result h15 hd, except_ok_bind, Bool.false_eq_true, if_false]
  cases sf <;> rfl

/-- A data-processing instruction whose operands can be read ends as the skeleton does, in every format. -/
theorem exec_dpInstr_of_operands {op : DpOp} {c : Cond} {rn rd : Reg} {o : Operand2} {s : State} {cn : RegCell}
    {x : Shifted} (sf : Bool) (hc : Cond.passed c s.cpsr = true) (h15 : regShiftNamesR15 o rd rn = false)
    (hn : Names s rn cn) (hx : Operand2Is o s x) :
    exec (dpInstr op c sf rn rd o) s =
      answer (dpFinish op sf rd (dpCompute op (s.regs.read cn) x.value x.carry s.cpsr.c) s) := by
  obtain ⟨sf', rd', rn', hexec, hfields, hrn, h15'⟩ :=
    exec_dpInstr (op := op) (sf := sf) (rn := rn) (rd := rd) (o := o) hc
  rw [hexec, dataProcessing_of_operands sf' (h15'.trans h15) (fun hmove => hrn hmove ▸ hn) hx]
  cases hcmp : dpComparison op with
  | true => rw [dpFinish_of_comparison hcmp, dpFinish_of_comparison hcmp]
  | false =>
    obtain ⟨rfl, rfl⟩ := hfields hcmp
    rfl

/-- Settles O22: the skeleton's end on the operands (`exec_dpInstr_of_operands`), its result and flags in exact arithmetic
(`dpCompute_result`, `dpFlags_eq`). -/
theorem dataProcessingResult : Obligations.DataProcessingResult := by
  unfold Obligations.DataProcessingResult
  intro op c sf rn rd o s cn cd x hc h15 hn hx
  rw [exec_dpInstr_of_operands sf hc h15 hn hx]
  refine ⟨fun hcmp => ?comparison, fun hcmp hrd hd => ?result⟩
  case comparison => rw [dpFinish_of_comparison hcmp, dpFlags_eq, answer_ok]
  case result => rw [dpFinish_of_names hcmp hrd hd, dpFlags_eq, dpCompute_result, answer_ok]

end Sys2Proof.Machine
end

section
/-!
PROOFS. Data processing into R15 (`42_arm_data_processing.md` R452, R455): the result is a write of the program counter, with
S = 1 in the state the saved status word leaves.
-/

namespace Sys2Proof.Machine

/-! ### The exception return's copy of the saved status word -/

theorem restoreCpsr_of_hasSpsr {s : State} (h : hasSpsr s.cpsr.mode = true) :
    restoreCpsr s = .ok { s with cpsr := getSpsr s } :=
  restoreCpsr_eq_ok.mpr ⟨h, rfl⟩

/-- User and System mode, and an invalid mode code, have no saved status word (`42_arm_data_processing.md` R452). -/
theorem restoreCpsr_of_no_spsr {s : State} (h : hasSpsr s.cpsr.mode = false) :
    restoreCpsr s = .error (stop .noSpsr s) :=
  if_neg (Bool.eq_false_iff.mp h)

/-! ### The skeleton's end at Rd = 15 -/

/-- A result for R15 is a jump, after the return's copy where S = 1 (`42_arm_data_processing.md` R455). -/
theorem dpFinish_15 {op : DpOp} (h : dpComparison op = false) (sf : Bool) (x : Sum) (s : State) :
    dpFinish op sf 15 x s =
      (if sf then restoreCpsr s else .ok s) >>= fun restored => .ok (writePc x.result restored) := by
  simp only [dpFinish, h, Bool.false_eq_true, if_false, if_true]
  cases sf <;> rfl

/-- Settles O23: the skeleton's end at Rd = 15 (`dpFinish_15`), by S and by whether the mode has a saved status word
(`restoreCpsr_of_hasSpsr`, `restoreCpsr_of_no_spsr`). -/
theorem dataProcessingToPc : Obligations.DataProcessingToPc := by
  unfold Obligations.DataProcessingToPc
  intro op c rn o s cn x hc hcmp h15 hn hx r
  have hend (sf : Bool) : exec (dpInstr op c sf rn 15 o) s =
      answer ((if sf then restoreCpsr s else .ok s) >>= fun restored => .ok (writePc r restored)) := by
    rw [exec_dpInstr_of_operands sf hc h15 hn hx, dpFinish_15 hcmp, dpCompute_result]
  refine ⟨hend false, fun hspsr => ?restored, fun hnone => ?noSpsr⟩
  case restored => rw [hend, if_pos rfl, restoreCpsr_of_hasSpsr hspsr, except_ok_bind, answer_ok]
  case noSpsr => rw [hend, if_pos rfl, restoreCpsr_of_no_spsr hnone, except_error_bind, answer_error]

end Sys2Proof.Machine
end

section
/-!
PROOFS. ARM single data transfer (`43_arm_single_transfer.md` R500 to R521): what an access of either size leaves of the
registers, the loaded value's way into Rd, and the two halves of the skeleton with their operands read.
-/

namespace Sys2Proof.Machine

/-! ### An access leaves the registers -/

theorem OnlyLatch.regs_cpsr {s t : State} (h : OnlyLatch s t) : t.regs = s.regs ∧ t.cpsr = s.cpsr := by
  obtain ⟨l, rfl⟩ := h
  exact ⟨rfl, rfl⟩

theorem OnlyStores.regs_cpsr {ks : List Nat} {s t : State} (h : OnlyStores ks s t) :
    t.regs = s.regs ∧ t.cpsr = s.cpsr := by
  obtain ⟨m, rfl, -, -⟩ := h
  exact ⟨rfl, rfl⟩

theorem byteOrWordRead_regs_cpsr (byte : Bool) (a : Word) (s : State) :
    (if byte then read8 a s else read32 a s).2.regs = s.regs ∧
    (if byte then read8 a s else read32 a s).2.cpsr = s.cpsr := by
  cases byte with
  | false => exact (read32_onlyLatch a s).regs_cpsr
  | true => exact (read8_onlyLatch a s).regs_cpsr

theorem byteOrWordWrite_regs_cpsr (byte : Bool) (a v : Word) (s : State) :
    (if byte then write8 a v s else write32 a v s).regs = s.regs ∧
    (if byte then write8 a v s else write32 a v s).cpsr = s.cpsr := by
  cases byte with
  | false => exact (write32_onlyStores a v s).regs_cpsr
  | true => exact (write8_onlyStores a v s).regs_cpsr

/-- A write-back after an access moves the base in the registers as they were before it. -/
theorem writeBack_after_access {wb : Bool} {rn : Reg} {cn : RegCell} (v : Word) {s t : State} (hn : Names s rn cn)
    (h15 : wb = true → rn ≠ 15) (ht : t.regs = s.regs ∧ t.cpsr = s.cpsr) :
    writeBack wb rn v t = .ok { t with regs := if wb then s.regs.write cn v else s.regs } := by
  obtain ⟨hregs, hcpsr⟩ := ht
  rw [writeBack_of_names v (hn.congr (congrArg Psr.mode hcpsr)) h15, hregs]

/-! ### The loaded value's way into Rd -/

/-- The end of a load: the value into Rd, or a jump there (`43_arm_single_transfer.md` R510, R511). -/
def finishLoad (rd : Reg) (addr v : Word) (s : State) : Except Fault State :=
  if rd = 15 then do
    failIf (addr.extractLsb' 0 2 != 0#2) (.unpredictable .ldrPcMisaligned) s
    pure (writePc v s)
  else writeReg rd v s

theorem finishLoad_of_names {rd : Reg} {cd : RegCell} {s : State} (addr v : Word) (h15 : rd ≠ 15) (hd : Names s rd cd) :
    finishLoad rd addr v s = .ok { s with regs := s.regs.write cd v } :=
  (if_neg h15).trans (writeReg_of_names v h15 hd)

/-- A word is a multiple of 4 when its two low bits are clear. -/
theorem lowBits_eq_zero_iff (a : Word) : a.extractLsb' 0 2 = 0#2 ↔ a.toNat % 4 = 0 := by
  simp [← BitVec.toNat_inj]

theorem finishLoad_15_of_aligned {addr : Word} (v : Word) (s : State) (h : addr.toNat % 4 = 0) :
    finishLoad 15 addr v s = .ok (writePc v s) := by
  have haligned : (addr.extractLsb' 0 2 != 0#2) = false :=
    bne_eq_false_iff_eq.mpr ((lowBits_eq_zero_iff addr).mpr h)
  simp only [finishLoad, if_true, haligned, failIf_false, except_ok_bind, except_pure]

theorem finishLoad_15_of_misaligned {addr : Word} (v : Word) (s : State) (h : addr.toNat % 4 ≠ 0) :
    finishLoad 15 addr v s = .error (stop (.unpredictable .ldrPcMisaligned) s) := by
  have hmisaligned : (addr.extractLsb' 0 2 != 0#2) = true :=
    bne_iff_ne.mpr (mt (lowBits_eq_zero_iff addr).mp h)
  simp only [finishLoad, if_true, hmisaligned, failIf_true, except_error_bind]

/-! ### The skeleton with its operands read -/

/-- A transfer that is none of the UNPREDICTABLE cases passes their tests (`43_arm_single_transfer.md` R504). -/
theorem sdtCheck_of_predictable {byte p w : Bool} {rn rd : Reg} {off : SdtOffset} (s : State)
    (hoff : sdtOffsetIsR15 off = false) (hwb : writesBack p w = true → rn ≠ 15 ∧ rn ≠ rd)
    (hbyte : byte = true → rd ≠ 15) : sdtCheck byte p w rn rd off s = .ok () := by
  have hbase : (writesBack p w && rn == 15) = false := by simpa using fun h => (hwb h).1
  have hclash : (writesBack p w && rn == rd) = false := by simpa using fun h => (hwb h).2
  have hbyteR15 : (byte && rd == 15) = false := by simpa using hbyte
  simp only [sdtCheck, hoff, hbase, hclash, hbyteR15, failIf_false, except_ok_bind]

section
variable {byte p u w : Bool} {rn rd : Reg} {off : SdtOffset} {s : State} {cn cd : RegCell} {x : Word}

/-- With its operands read, a load is the access, the write-back and the end of the load, in that order
(`43_arm_single_transfer.md` R504, R510). -/
theorem singleLoad_of_operands (hwb : writesBack p w = true → rn ≠ 15 ∧ rn ≠ rd) (hbyte : byte = true → rd ≠ 15)
    (hn : Names s rn cn) (hx : SdtOffsetIs off s x) :
    let addr := transferAddress p u (s.regs.read cn) x
    let data := if byte then read8 addr s else read32 addr s
    let moved := if writesBack p w then s.regs.write cn (applyOffset u (s.regs.read cn) x) else s.regs
    singleLoad byte p u w rn rd off s = finishLoad rd addr data.1 { data.2 with regs := moved } := by
  intro addr data moved
  obtain ⟨hoffset, hoff⟩ := sdtOffset_of_is hx
  have hback : writeBack (writesBack p w) rn (applyOffset u (s.regs.read cn) x) data.2 =
      .ok { data.2 with regs := moved } :=
    writeBack_after_access _ hn (fun h => (hwb h).1) (byteOrWordRead_regs_cpsr byte addr s)
  rw [singleLoad, sdtCheck_of_predictable s hoff hwb hbyte, hoffset, readReg_of_names hn]
  exact congrArg (· >>= finishLoad rd addr data.1) hback

/-- With its operands read, a store is the access and then the write-back (`43_arm_single_transfer.md` R504, R512). -/
theorem singleStore_of_operands (hwb : writesBack p w = true → rn ≠ 15 ∧ rn ≠ rd) (hbyte : byte = true → rd ≠ 15)
    (hn : Names s rn cn) (hd : Names s rd cd) (hx : SdtOffsetIs off s x) :
    let addr := transferAddress p u (s.regs.read cn) x
    let v := if rd = 15 then storedPc s else s.regs.read cd
    let stored := if byte then write8 addr v s else write32 addr v s
    let moved := if writesBack p w then s.regs.write cn (applyOffset u (s.regs.read cn) x) else s.regs
    singleStore byte p u w rn rd off s = .ok { stored with regs := moved } := by
  intro addr v stored moved
  obtain ⟨hoffset, hoff⟩ := sdtOffset_of_is hx
  have hback : writeBack (writesBack p w) rn (applyOffset u (s.regs.read cn) x) stored =
      .ok { stored with regs := moved } :=
    writeBack_after_access _ hn (fun h => (hwb h).1) (byteOrWordWrite_regs_cpsr byte addr v s)
  rw [singleStore, sdtCheck_of_predictable s hoff hwb hbyte, hoffset, readReg_of_names hn, readReg_of_names hd, ← hback]
  by_cases h15 : rd = 15
  · simp only [stored, v, h15, if_true]
    rfl
  · simp only [stored, v, h15, if_false]
    rfl

end

/-! ### Every form -/

/-- Settles O25: each form runs the load half, which ends by the value's way into Rd after the write-back
(`singleLoad_of_operands`): a register write, a jump, or the fault of a misaligned address. -/
theorem singleLoad_everyForm : Obligations.SingleLoad := by
  unfold Obligations.SingleLoad
  intro byte c p u w rn rd off s cn cd x wb base addr data regs hc hwb hbyte hn hd hx
  have hload : singleLoad byte p u w rn rd off s = finishLoad rd addr data.1 { data.2 with regs := regs } :=
    singleLoad_of_operands hwb hbyte hn hx
  have hd' : Names { data.2 with regs := regs } rd cd :=
    hd.congr (congrArg Psr.mode (byteOrWordRead_regs_cpsr byte addr s).2)
  rw [exec_sdtInstr hc, if_pos rfl, hload]
  refine ⟨fun h15 => ?register, ?aligned, ?misaligned⟩
  case register => rw [finishLoad_of_names addr data.1 h15 hd', answer_ok]
  case aligned =>
    rintro rfl haligned
    rw [finishLoad_15_of_aligned _ _ haligned, answer_ok]
  case misaligned =>
    rintro rfl hmisaligned
    rw [finishLoad_15_of_misaligned _ _ hmisaligned, answer_error]

/-- Settles O26: each form runs the store half, which stores Rd, or R15 as R513 has it, and then writes back
(`singleStore_of_operands`, `storedPc_eq`). -/
theorem singleStore_everyForm : Obligations.SingleStore := by
  unfold Obligations.SingleStore
  intro byte c p u w rn rd off s cn cd x wb base addr v stored hc hwb hbyte hn hd hx
  have hstore := singleStore_of_operands (u := u) hwb hbyte hn hd hx
  rw [storedPc_eq] at hstore
  rw [exec_sdtInstr hc]
  exact congrArg answer hstore

end Sys2Proof.Machine
end

section
/-!
PROOFS. Branches (`44_arm_branch.md` R556 to R560, `49_thumb.md` R839): the exact value of a branch offset, the link of the
current mode, and what a branch exchange does with each of the three kinds of target.
-/

namespace Sys2Proof.Machine

/-! ### B and BL -/

theorem twoPow_eq_ofInt (w k : Nat) : BitVec.twoPow w k = BitVec.ofInt w (2 ^ k) := by
  have h := BitVec.ofInt_natCast w (2 ^ k)
  rw [Nat.cast_pow, Nat.cast_ofNat] at h
  exact h ▸ BitVec.eq_of_toNat_eq (BitVec.toNat_twoPow w k)

/-- A sign-extended field moved up by `k` is the field's signed value times `2 ^ k`. -/
theorem signExtend_shiftLeft_eq_ofInt {n : Nat} (x : BitVec n) (k : Nat) :
    x.signExtend 32 <<< k = BitVec.ofInt 32 (x.toInt * 2 ^ k) := by
  rw [BitVec.shiftLeft_eq_mul_twoPow, twoPow_eq_ofInt, BitVec.ofInt_mul, BitVec.signExtend]

theorem branchOffset_eq (imm24 : BitVec 24) : branchOffset imm24 = BitVec.ofInt 32 (imm24.toInt * 4) :=
  signExtend_shiftLeft_eq_ofInt imm24 2

/-- B writes the program counter alone (`44_arm_branch.md` R557). -/
theorem branch_without_link (imm24 : BitVec 24) (s : State) :
    branch false imm24 s = .ok (writePc (s.regs.pc + branchOffset imm24) s) := rfl

/-- BL sets R14 of the current mode first; its target is reckoned from the PC before that (`44_arm_branch.md` R557). -/
theorem branch_with_link {c14 : RegCell} {s : State} (imm24 : BitVec 24) (h : Names s 14 c14) :
    branch true imm24 s =
      .ok (writePc (s.regs.pc + branchOffset imm24) { s with regs := s.regs.write c14 (s.regs.pc - 4) }) := by
  simp only [branch, if_true, writeReg_of_names _ (show (14 : Reg) ≠ 15 by decide) h, except_ok_bind, except_pure]

/-- Settles O28: the handler of both forms without and with the link (`branch_without_link`, `branch_with_link`), its offset
in exact arithmetic (`branchOffset_eq`). -/
theorem armBranch : Obligations.ArmBranch := by
  unfold Obligations.ArmBranch
  intro c imm24 s hc target
  have htarget : s.regs.pc + branchOffset imm24 = target := congrArg (s.regs.pc + ·) (branchOffset_eq imm24)
  have hb : exec (.b c imm24) s = answer (branch false imm24 s) := whenPassed_of_passed hc _
  have hbl : exec (.bl c imm24) s = answer (branch true imm24 s) := whenPassed_of_passed hc _
  refine ⟨?b, fun c14 h14 => ?bl⟩
  case b => rw [hb, branch_without_link, htarget, answer_ok]
  case bl => rw [hbl, branch_with_link imm24 h14, htarget, answer_ok]

/-! ### The three kinds of target of a branch exchange -/

/-- The alignment of the ARM state leaves a word whose two low bits are clear (`44_arm_branch.md` R556). -/
theorem alignPc_arm_of_aligned {t : Word} (h0 : t.getLsbD 0 = false) (h1 : t.getLsbD 1 = false) :
    alignPc false t = t := by
  have hmask : ∀ j < 32, (~~~3#32).getLsbD j = decide (2 ≤ j) := by decide
  refine BitVec.eq_of_getLsbD_eq fun j hj => ?_
  rw [alignPc_eq, if_neg Bool.false_ne_true, BitVec.getLsbD_and, hmask j hj]
  match j with
  | 0 => rw [h0, Bool.false_and]
  | 1 => rw [h1, Bool.false_and]
  | n + 2 => rw [decide_eq_true (Nat.le_add_left 2 n), Bool.and_true]

/-- A target with bit 0 set is jumped to in Thumb state, bit 0 cleared (`44_arm_branch.md` R560). -/
theorem branchExchange_of_thumb {t : Word} (s : State) (h0 : t.getLsbD 0 = true) :
    branchExchange t s = .ok { s with
      cpsr := { s.cpsr with t := true }, regs := s.regs.write .pc (t &&& ~~~1#32), flushRequested := true } :=
  branchExchange_eq_ok.mpr (.inl ⟨h0, rfl⟩)

/-- A target with both low bits clear is jumped to in ARM state as it is (`44_arm_branch.md` R560). -/
theorem branchExchange_of_arm {t : Word} (s : State) (h0 : t.getLsbD 0 = false) (h1 : t.getLsbD 1 = false) :
    branchExchange t s = .ok { s with
      cpsr := { s.cpsr with t := false }, regs := s.regs.write .pc t, flushRequested := true } := by
  rw [branchExchange_eq_ok.mpr (.inr ⟨h0, h1, rfl⟩), writePc, alignPc_arm_of_aligned h0 h1]

/-- An ARM-state target with bit 1 set faults before anything is written (`44_arm_branch.md` R560). -/
theorem branchExchange_of_misaligned {t : Word} (s : State) (h0 : t.getLsbD 0 = false) (h1 : t.getLsbD 1 = true) :
    branchExchange t s = .error (stop .misalignedBxTarget s) := by
  simp only [branchExchange, h0, h1, Bool.false_eq_true, if_false, failIf_true, except_error_bind]

/-! ### The two forms of BX -/

theorem exec_bx_of_names {c : Cond} {r : Reg} {cr : RegCell} {s : State} (hc : Cond.passed c s.cpsr = true)
    (hr : Names s r cr) : exec (.bx c r) s = answer (branchExchange (s.regs.read cr) s) := by
  have hbx : exec (.bx c r) s = answer (readReg r s >>= fun t => branchExchange t s) := whenPassed_of_passed hc _
  rw [hbx, readReg_of_names hr, except_ok_bind]

/-- The Thumb form tests H1 and then reads the register its H2 and Rs fields name (`49_thumb.md` R839). -/
theorem exec_tBx (h1 h2 : Bool) (rs rd : LowReg) (s : State) :
    exec (.tBx h1 h2 rs rd) s =
      answer (failIf h1 (.unpredictable .thumbBxH1) s >>= fun _ =>
        readReg (hiReg h2 rs) s >>= fun t => branchExchange t s) := rfl

theorem exec_tBx_of_names {h2 : Bool} {rs : LowReg} {cr : RegCell} {s : State} (rd : LowReg)
    (hr : Names s (hiReg h2 rs) cr) :
    exec (.tBx false h2 rs rd) s = answer (branchExchange (s.regs.read cr) s) := by
  rw [exec_tBx, failIf_false, except_ok_bind, readReg_of_names hr, except_ok_bind]

theorem exec_tBx_of_h1 (h2 : Bool) (rs rd : LowReg) (s : State) :
    exec (.tBx true h2 rs rd) s = .fault (stop (.unpredictable .thumbBxH1) s) := by
  rw [exec_tBx, failIf_true, except_error_bind, answer_error]

/-- Settles O29: both forms are the branch exchange of the register's word (`exec_bx_of_names`, `exec_tBx_of_names`), which the
two low bits of that word decide; H1 faults in the Thumb form first (`exec_tBx_of_h1`). -/
theorem branchExchange_bothForms : Obligations.BranchExchange := by
  unfold Obligations.BranchExchange
  intro i r s cr hi hr t
  have hexec : exec i s = answer (branchExchange t s) := by
    rcases hi with ⟨c, hc, rfl⟩ | ⟨h2, rs, rd, rfl, rfl⟩
    · exact exec_bx_of_names hc hr
    · exact exec_tBx_of_names rd hr
  rw [hexec]
  refine ⟨fun h0 => ?thumb, fun h0 h1 => ?arm, fun h0 h1 => ?misaligned, fun h2 rs rd => exec_tBx_of_h1 h2 rs rd s⟩
  case thumb => rw [branchExchange_of_thumb s h0, answer_ok]
  case arm => rw [branchExchange_of_arm s h0 h1, answer_ok]
  case misaligned => rw [branchExchange_of_misaligned s h0 h1, answer_error]

end Sys2Proof.Machine
end

section
/-!
PROOFS. Status-register transfer (`45_arm_psr_transfer.md` R602 to R608): the bits a field mask names, a masked write bit by
bit, and MSR with its operand resolved.
-/

namespace Sys2Proof.Machine

/-! ### Masks and masked writes, bit by bit -/

/-- Bit 5 of a status word is T (`10_state.md` R52). -/
theorem Psr.getLsbD_toWord_5 (p : Psr) : p.toWord.getLsbD 5 = p.t := congrArg Psr.t (Psr.ofWord_toWord p)

/-- A field mask's bit `k` names byte `k` of the status word (`45_arm_psr_transfer.md` R603). -/
theorem getLsbD_byteMask (mask : BitVec 4) {j : Nat} (hj : j < 32) :
    (byteMask mask).getLsbD j = mask.getLsbD (j / 8) := by
  have hbits : ∀ m : BitVec 4, ∀ j < 32, (byteMask m).getLsbD j = m.getLsbD (j / 8) := by decide
  exact hbits mask j hj

/-- From User mode a CPSR write reaches the flags byte alone (`45_arm_psr_transfer.md` R604). -/
theorem getLsbD_cpsrMask (mask : BitVec 4) (s : State) {j : Nat} (hj : j < 32) :
    (cpsrMask mask s).getLsbD j = (mask.getLsbD (j / 8) && (s.cpsr.mode != 0x10 || decide (24 ≤ j))) := by
  have hflags : ∀ j < 32, (0xFF000000#32).getLsbD j = decide (24 ≤ j) := by decide
  have hcases : cpsrMask mask s =
      if s.cpsr.mode = 0x10 then byteMask mask &&& 0xFF000000#32 else byteMask mask := rfl
  rw [hcases]
  by_cases huser : s.cpsr.mode = 0x10
  · rw [if_pos huser, BitVec.getLsbD_and, getLsbD_byteMask mask hj, hflags j hj, huser, bne_self_eq_false, Bool.false_or]
  · rw [if_neg huser, getLsbD_byteMask mask hj, bne_iff_ne.mpr huser, Bool.true_or, Bool.and_true]

/-- A masked write takes each bit from the operand where the mask is set, else keeps it. -/
theorem getLsbD_maskedPsr (old : Psr) (v m : Word) {j : Nat} (hj : j < 32) :
    (maskedPsr old v m).toWord.getLsbD j = if m.getLsbD j then v.getLsbD j else old.toWord.getLsbD j := by
  rw [maskedPsr, Psr.toWord_ofWord, BitVec.getLsbD_or, BitVec.getLsbD_and, BitVec.getLsbD_and, BitVec.getLsbD_not,
    decide_eq_true hj]
  cases m.getLsbD j <;> simp

theorem maskedPsr_t (old : Psr) (v m : Word) :
    (maskedPsr old v m).t = if m.getLsbD 5 then v.getLsbD 5 else old.t := by
  rw [← Psr.getLsbD_toWord_5, ← Psr.getLsbD_toWord_5, getLsbD_maskedPsr old v m (by decide)]

/-! ### MSR with its operand resolved -/

/-- Both forms of MSR write their operand, the rotated immediate or the register's word (`45_arm_psr_transfer.md` R602,
R605). -/
theorem exec_msr_of_operand {c : Cond} {r : Bool} {mask : BitVec 4} {i : Instr} {v : Word} {s : State}
    (hc : Cond.passed c s.cpsr = true)
    (hi : (∃ rot imm8, i = .msrImm c r mask rot imm8 ∧ v = (imm8.zeroExtend 32).rotateRight (2 * rot.toNat)) ∨
      ∃ rm cm, rm ≠ 15 ∧ Names s rm cm ∧ i = .msrReg c r mask rm ∧ v = s.regs.read cm) :
    exec i s = answer (moveToPsr r mask v s) := by
  rcases hi with ⟨rot, imm8, rfl, rfl⟩ | ⟨rm, cm, h15, hm, rfl, rfl⟩
  · exact whenPassed_of_passed hc _
  · have hreg : exec (.msrReg c r mask rm) s =
        answer (failIf (rm == 15) (.unpredictable .msrR15) s >>= fun _ =>
          readReg rm s >>= fun x => moveToPsr r mask x s) := whenPassed_of_passed hc _
    rw [hreg, beq_false_of_ne h15, failIf_false, except_ok_bind, readReg_of_names hm, except_ok_bind]

/-- A CPSR write changes the CPSR alone, with no flush, and faults where it would change T (`45_arm_psr_transfer.md` R606,
R608). -/
theorem moveToPsr_cpsr_eq (mask : BitVec 4) (v : Word) (s : State) :
    moveToPsr false mask v s =
      if (maskedPsr s.cpsr v (cpsrMask mask s)).t = s.cpsr.t then
        .ok { s with cpsr := maskedPsr s.cpsr v (cpsrMask mask s) }
      else .error (stop .tBitWrite s) := by
  have hwrite : moveToPsr false mask v s =
      (failIf ((maskedPsr s.cpsr v (cpsrMask mask s)).t != s.cpsr.t) .tBitWrite s >>= fun _ =>
        .ok { s with cpsr := maskedPsr s.cpsr v (cpsrMask mask s) }) := rfl
  rw [hwrite]
  by_cases ht : (maskedPsr s.cpsr v (cpsrMask mask s)).t = s.cpsr.t
  · rw [if_pos ht, bne_eq_false_iff_eq.mpr ht, failIf_false, except_ok_bind]
  · rw [if_neg ht, bne_iff_ne.mpr ht, failIf_true, except_error_bind]

/-- Settles O31: both forms are the CPSR write of their operand (`exec_msr_of_operand`). The written word is bit by bit the
operand's where the mask of the mode reaches (`getLsbD_maskedPsr`, `getLsbD_cpsrMask`), and its T decides between the write
and the fault (`moveToPsr_cpsr_eq`). -/
theorem msrCpsr : Obligations.MsrCpsr := by
  unfold Obligations.MsrCpsr
  intro c mask i v s hc hi written
  have hmask {j : Nat} (hj : j < 32) : (cpsrMask mask s).getLsbD j = written j := getLsbD_cpsrMask mask s hj
  have ht : (maskedPsr s.cpsr v (cpsrMask mask s)).t = if written 5 then v.getLsbD 5 else s.cpsr.t := by
    rw [maskedPsr_t, hmask (by decide)]
  rw [exec_msr_of_operand hc hi, moveToPsr_cpsr_eq, ht]
  refine ⟨fun hkept => ?write, fun hwritten hchanged => ?fault⟩
  case write =>
    have hsame : (if written 5 then v.getLsbD 5 else s.cpsr.t) = s.cpsr.t := by
      rcases hkept with hunwritten | hequal
      · rw [hunwritten, if_neg Bool.false_ne_true]
      · rw [hequal, ite_self]
    rw [if_pos hsame, answer_ok]
    refine ⟨_, rfl, fun j hj => ?_⟩
    rw [getLsbD_maskedPsr _ _ _ hj, hmask hj]
  case fault => rw [if_pos hwritten, if_neg hchanged, answer_error]

end Sys2Proof.Machine
end

section
/-!
PROOFS. ARM multiply and multiply long (`46_arm_multiply.md` R650 to R659): the products in exact arithmetic, the flags with
the drawn ones named, and each skeleton past its two tests or stopped by one of them.
-/

namespace Sys2Proof.Machine

/-! ### MUL and MLA -/

/-- The product with the accumulator is the exact one modulo 2^32 (`41_shifter_alu.md` R421). -/
theorem mul_add_eq_ofNat (a b n : Word) : a * b + n = BitVec.ofNat 32 (a.toNat * b.toNat + n.toNat) :=
  BitVec.eq_of_toNat_eq (by simp)

/-- The flags of a 32-bit multiply are N and Z of the result and one draw, for C (`41_shifter_alu.md` R422). -/
theorem mulFlags_eq (r : Word) (s : State) :
    mulFlags r s =
      { s with
        cpsr := { s.cpsr with n := r.getLsbD 31, z := decide (r = 0), c := draw s }
        draws := s.draws + 1 } := by
  simp only [mulFlags, drawn, Psr.setNZ, BitVec.msb_eq_getLsbD_last]
  rfl

/-- `n` is what the skeleton adds: nothing for MUL, the word of a register other than 15 for MLA
(`46_arm_multiply.md` R651). -/
def AccumulatorIs (acc : Option Reg) (s : State) (n : Word) : Prop :=
  match acc with
  | none => n = 0
  | some rn => rn ≠ 15 ∧ ∃ cn, Names s rn cn ∧ n = s.regs.read cn

theorem AccumulatorIs.ne_some_15 {acc : Option Reg} {s : State} {n : Word} (h : AccumulatorIs acc s n) :
    acc ≠ some 15 := by
  cases acc with
  | none => exact (Option.some_ne_none 15).symm
  | some rn => exact fun h15 => h.1 (Option.some.inj h15)

section
variable {acc : Option Reg} {sf : Bool} {rd rs rm : Reg} {s : State}

/-- R15 in any place stops the skeleton first (`46_arm_multiply.md` R651). -/
theorem multiply_of_r15 (h : rd = 15 ∨ rs = 15 ∨ rm = 15 ∨ acc = some 15) :
    multiply acc sf rd rs rm s = .error (stop (.unpredictable .mulR15) s) := by
  have htest : (rd == 15 || rs == 15 || rm == 15 || acc == some 15) = true := by
    simpa only [Bool.or_eq_true, beq_iff_eq, or_assoc] using h
  rw [multiply, htest, failIf_true, except_error_bind]

/-- Without R15 the skeleton stops where Rd is Rm (`46_arm_multiply.md` R651). -/
theorem multiply_of_rd_eq_rm (hd15 : rd ≠ 15) (hs15 : rs ≠ 15) (hacc : acc ≠ some 15) (h : rd = rm) :
    multiply acc sf rd rs rm s = .error (stop (.unpredictable .mulRdIsRm) s) := by
  subst h
  simp only [multiply, beq_false_of_ne hd15, beq_false_of_ne hs15, beq_false_of_ne hacc, Bool.or_false, failIf_false,
    except_ok_bind, beq_self_eq_true, failIf_true, except_error_bind]

/-- Past both tests the skeleton writes the exact result and, with S = 1, the flags (`46_arm_multiply.md` R651). -/
theorem multiply_of_operands {cd cs cm : RegCell} {n : Word} (hd15 : rd ≠ 15) (hs15 : rs ≠ 15) (hm15 : rm ≠ 15)
    (hne : rd ≠ rm) (hd : Names s rd cd) (hs : Names s rs cs) (hm : Names s rm cm) (hn : AccumulatorIs acc s n) :
    let r := BitVec.ofNat 32 ((s.regs.read cm).toNat * (s.regs.read cs).toNat + n.toNat)
    multiply acc sf rd rs rm s = .ok { s with
      regs := s.regs.write cd r
      cpsr := if sf then { s.cpsr with n := r.getLsbD 31, z := decide (r = 0), c := draw s } else s.cpsr
      draws := if sf then s.draws + 1 else s.draws } := by
  intro r
  have hacc : (acc == some 15) = false := beq_false_of_ne hn.ne_some_15
  have hpast : multiply acc sf rd rs rm s =
      writeReg rd (s.regs.read cm * s.regs.read cs + n) s >>= fun t =>
        .ok (if sf then mulFlags (s.regs.read cm * s.regs.read cs + n) t else t) := by
    cases acc with
    | none =>
      obtain rfl : n = 0 := hn
      simp only [multiply, beq_false_of_ne hd15, beq_false_of_ne hs15, beq_false_of_ne hm15, beq_false_of_ne hne, hacc,
        Bool.or_false, failIf_false, except_ok_bind, readReg_of_names hm, readReg_of_names hs, except_pure]
    | some rn =>
      obtain ⟨-, cn, hcn, rfl⟩ := hn
      simp only [multiply, beq_false_of_ne hd15, beq_false_of_ne hs15, beq_false_of_ne hm15, beq_false_of_ne hne, hacc,
        Bool.or_false, failIf_false, except_ok_bind, readReg_of_names hm, readReg_of_names hs, readReg_of_names hcn,
        except_pure]
  rw [hpast, mul_add_eq_ofNat, writeReg_of_names _ hd15 hd, except_ok_bind]
  cases sf with
  | false => rfl
  | true => exact congrArg Except.ok (mulFlags_eq r _)

end

/-- Settles O33: both instructions run the one skeleton, whose first test that holds stops it (`multiply_of_r15`,
`multiply_of_rd_eq_rm`) and which else writes the exact result, with the drawn C as the free value
(`multiply_of_operands`). -/
theorem multiply_everyForm : Obligations.Multiply := by
  unfold Obligations.Multiply
  intro c sf rd rn rs rm s cd cn cs cm hc hd hn hs hm product effect
  have hmul : exec (.mul c sf rd rs rm) s = answer (multiply none sf rd rs rm s) := whenPassed_of_passed hc _
  have hmla : exec (.mla c sf rd rn rs rm) s = answer (multiply (some rn) sf rd rs rm s) := whenPassed_of_passed hc _
  rw [hmul, hmla]
  have haccMul : AccumulatorIs none s 0 := rfl
  have haccMla (hn15 : rn ≠ 15) : AccumulatorIs (some rn) s (s.regs.read cn) := ⟨hn15, cn, hn, rfl⟩
  refine ⟨fun hd15 hs15 hm15 hne => ⟨?mul, fun hn15 => ?mla⟩, fun h15 => ?mulR15, fun h15 => ?mlaR15,
    fun hd15 hn15 hs15 hdm => ?rdIsRm⟩
  case mul =>
    refine ⟨draw s, _, rfl, ?_⟩
    rw [multiply_of_operands hd15 hs15 hm15 hne hd hs hm haccMul]
    rfl
  case mla =>
    refine ⟨draw s, _, rfl, ?_⟩
    rw [multiply_of_operands hd15 hs15 hm15 hne hd hs hm (haccMla hn15)]
    rfl
  case mulR15 =>
    rw [multiply_of_r15 (h15.imp_right (Or.imp_right .inl)), answer_error]
  case mlaR15 =>
    rw [multiply_of_r15 (by simpa only [Option.some.injEq, or_comm, or_left_comm] using h15), answer_error]
  case rdIsRm =>
    rw [multiply_of_rd_eq_rm hd15 hs15 (Option.some_ne_none 15).symm hdm,
      multiply_of_rd_eq_rm hd15 hs15 (haccMla hn15).ne_some_15 hdm]
    exact ⟨rfl, rfl⟩

/-! ### The long multiplies -/

theorem ofInt_toNat_eq_zeroExtend {n : Nat} (w : Nat) (x : BitVec n) : BitVec.ofInt w (x.toNat : Int) = x.zeroExtend w :=
  (BitVec.ofInt_natCast w x.toNat).trans (BitVec.ofNat_toNat w x)

/-- Two words side by side are the exact 64-bit number (`46_arm_multiply.md` R652). -/
theorem append_words_eq_ofInt (hi lo : Word) :
    (hi ++ lo : BitVec 64) = BitVec.ofInt 64 ((hi.toNat : Int) * 2 ^ 32 + lo.toNat) := by
  have hword : (hi ++ lo).toNat = hi.toNat * 2 ^ 32 + lo.toNat := by
    rw [BitVec.toNat_append, ← Nat.shiftLeft_add_eq_or_of_lt lo.isLt, Nat.shiftLeft_eq]
  have hcast : ((hi ++ lo).toNat : Int) = (hi.toNat : Int) * 2 ^ 32 + lo.toNat := by exact_mod_cast hword
  rw [← hcast, ofInt_toNat_eq_zeroExtend]
  exact (BitVec.setWidth_eq _).symm

/-- The product is the exact one of the operands' signed or unsigned values, modulo 2^64 (`41_shifter_alu.md` R421). -/
theorem longProduct_eq_ofInt (signed : Bool) (a b : Word) :
    longProduct signed a b =
      BitVec.ofInt 64 (if signed then a.toInt * b.toInt else (a.toNat : Int) * (b.toNat : Int)) := by
  cases signed with
  | false =>
    rw [if_neg Bool.false_ne_true, BitVec.ofInt_mul, ofInt_toNat_eq_zeroExtend, ofInt_toNat_eq_zeroExtend]
    rfl
  | true => exact (BitVec.ofInt_mul _ _).symm

/-- The flags of a long multiply are N and Z of the 64-bit result and two draws, for C and for V
(`41_shifter_alu.md` R422). -/
theorem mullFlags_eq (p : BitVec 64) (s : State) :
    mullFlags p s =
      { s with
        cpsr := { s.cpsr with n := p.getLsbD 63, z := decide (p = 0), c := draw s, v := draw (drawn s) }
        draws := s.draws + 2 } := by
  simp only [mullFlags, drawn, BitVec.msb_eq_getLsbD_last]
  rfl

section
variable {signed acc sf : Bool} {hi lo rs rm : Reg} {s : State}

/-- R15 in any place stops the skeleton first (`46_arm_multiply.md` R652). -/
theorem multiplyLong_of_r15 (h : hi = 15 ∨ lo = 15 ∨ rs = 15 ∨ rm = 15) :
    multiplyLong signed acc sf hi lo rs rm s = .error (stop (.unpredictable .mullR15) s) := by
  have htest : (hi == 15 || lo == 15 || rs == 15 || rm == 15) = true := by
    simpa only [Bool.or_eq_true, beq_iff_eq, or_assoc] using h
  rw [multiplyLong, htest, failIf_true, except_error_bind]

theorem longR15_eq_false (h : ¬(hi = 15 ∨ lo = 15 ∨ rs = 15 ∨ rm = 15)) :
    (hi == 15 || lo == 15 || rs == 15 || rm == 15) = false := by
  simpa only [Bool.or_eq_false_iff, beq_eq_false_iff_ne, not_or, and_assoc] using h

/-- Without R15 the skeleton stops where two of RdHi, RdLo and Rm are one (`46_arm_multiply.md` R652). -/
theorem multiplyLong_of_clash (h15 : ¬(hi = 15 ∨ lo = 15 ∨ rs = 15 ∨ rm = 15)) (h : hi = lo ∨ hi = rm ∨ lo = rm) :
    multiplyLong signed acc sf hi lo rs rm s = .error (stop (.unpredictable .mullRegisterClash) s) := by
  have htest : (hi == lo || hi == rm || lo == rm) = true := by
    simpa only [Bool.or_eq_true, beq_iff_eq, or_assoc] using h
  rw [multiplyLong, longR15_eq_false h15, failIf_false, except_ok_bind, htest, failIf_true, except_error_bind]

/-- Past both tests the skeleton reads everything, writes the exact result's halves, RdLo first, and, with S = 1, the flags
(`46_arm_multiply.md` R652). -/
theorem multiplyLong_of_operands {chi clo cs cm : RegCell} (h15 : ¬(hi = 15 ∨ lo = 15 ∨ rs = 15 ∨ rm = 15))
    (hclash : ¬(hi = lo ∨ hi = rm ∨ lo = rm)) (hhi : Names s hi chi) (hlo : Names s lo clo) (hs : Names s rs cs)
    (hm : Names s rm cm) :
    let old : BitVec 64 := if acc then s.regs.read chi ++ s.regs.read clo else 0
    let p := longProduct signed (s.regs.read cm) (s.regs.read cs) + old
    multiplyLong signed acc sf hi lo rs rm s = .ok { s with
      regs := (s.regs.write clo (p.extractLsb' 0 32)).write chi (p.extractLsb' 32 32)
      cpsr := if sf then
        { s.cpsr with n := p.getLsbD 63, z := decide (p = 0), c := draw s, v := draw (drawn s) } else s.cpsr
      draws := if sf then s.draws + 2 else s.draws } := by
  intro old p
  have htest : (hi == lo || hi == rm || lo == rm) = false := by
    simpa only [Bool.or_eq_false_iff, beq_eq_false_iff_ne, not_or, and_assoc] using hclash
  have hpast : multiplyLong signed acc sf hi lo rs rm s =
      writeReg lo (p.extractLsb' 0 32) s >>= fun t =>
        writeReg hi (p.extractLsb' 32 32) t >>= fun u => .ok (if sf then mullFlags p u else u) := by
    cases acc <;>
    · simp only [multiplyLong, longR15_eq_false h15, htest, failIf_false, except_ok_bind, readReg_of_names hm,
        readReg_of_names hs, readReg_of_names hhi, readReg_of_names hlo, except_pure, Bool.false_eq_true, if_true, if_false]
      rfl
  have hhi15 : hi ≠ 15 := fun h => h15 (.inl h)
  have hlo15 : lo ≠ 15 := fun h => h15 (.inr (.inl h))
  have hhi' : Names { s with regs := s.regs.write clo (p.extractLsb' 0 32) } hi chi := hhi.congr rfl
  rw [hpast, writeReg_of_names _ hlo15 hlo, except_ok_bind, writeReg_of_names _ hhi15 hhi', except_ok_bind]
  cases sf with
  | false => rfl
  | true => exact congrArg Except.ok (mullFlags_eq p _)

end

/-- Settles O34: the four instructions run the one skeleton (`exec_longInstr`), whose first test that holds stops it
(`multiplyLong_of_r15`, `multiplyLong_of_clash`) and which else writes the result, with the drawn C and V as the free values
(`multiplyLong_of_operands`). That result is the exact one modulo 2^64 (`longProduct_eq_ofInt`, `append_words_eq_ofInt`). -/
theorem multiplyLong_everyForm : Obligations.MultiplyLong := by
  unfold Obligations.MultiplyLong
  intro signed acc c sf hi lo rs rm s chi clo cs cm hc hhi hlo hs hm a b product old p i named clash
  have hresult : longProduct signed a b + (if acc then s.regs.read chi ++ s.regs.read clo else 0) = p := by
    rw [longProduct_eq_ofInt]
    simp only [p, old, BitVec.ofInt_add]
    cases acc with
    | false => rfl
    | true => exact congrArg (BitVec.ofInt 64 product + ·) (append_words_eq_ofInt _ _)
  rw [exec_longInstr hc]
  refine ⟨fun h15 hdistinct => ?result, fun h15 => ?r15, fun h15 hclash => ?clash⟩
  case result =>
    refine ⟨draw s, draw (drawn s), ?_⟩
    rw [multiplyLong_of_operands h15 hdistinct hhi hlo hs hm, hresult, answer_ok]
  case r15 => rw [multiplyLong_of_r15 h15, answer_error]
  case clash => rw [multiplyLong_of_clash h15 hclash, answer_error]

end Sys2Proof.Machine
end

section
/-!
PROOFS. ARM single data swap, and the faults of the halfword and signed transfers (`47_arm_swap_halfword.md` R700 to R717): the
swap past its two tests or stopped by one of them, and the tests of the halfword skeleton in their order.
-/

namespace Sys2Proof.Machine

/-! ### SWP and SWPB -/

section
variable {byte : Bool} {rn rd rm : Reg} {s : State}

/-- R15 in any place stops the swap first (`47_arm_swap_halfword.md` R700). -/
theorem swap_of_r15 (h : rn = 15 ∨ rd = 15 ∨ rm = 15) :
    swap byte rn rd rm s = .error (stop (.unpredictable .swpR15) s) := by
  have htest : (rn == 15 || rd == 15 || rm == 15) = true := by
    simpa only [Bool.or_eq_true, beq_iff_eq, or_assoc] using h
  rw [swap, htest, failIf_true, except_error_bind]

/-- Without R15 the swap stops where the base is also Rm or Rd (`47_arm_swap_halfword.md` R700). -/
theorem swap_of_baseClash (hn15 : rn ≠ 15) (hd15 : rd ≠ 15) (hm15 : rm ≠ 15) (h : rn = rm ∨ rn = rd) :
    swap byte rn rd rm s = .error (stop (.unpredictable .swpBaseClash) s) := by
  have htest : (rn == rm || rn == rd) = true := by
    simpa only [Bool.or_eq_true, beq_iff_eq] using h
  simp only [swap, beq_false_of_ne hn15, beq_false_of_ne hd15, beq_false_of_ne hm15, Bool.or_false, failIf_false,
    except_ok_bind, htest, failIf_true, except_error_bind]

/-- Past both tests the swap reads memory, stores Rm there and then writes the old value to Rd, in the registers as they were
before the two accesses (`47_arm_swap_halfword.md` R700). -/
theorem swap_of_operands {cn cd cm : RegCell} (hn15 : rn ≠ 15) (hd15 : rd ≠ 15) (hm15 : rm ≠ 15) (hnm : rn ≠ rm)
    (hnd : rn ≠ rd) (hn : Names s rn cn) (hd : Names s rd cd) (hm : Names s rm cm) :
    let addr := s.regs.read cn
    let t := if byte then read8 addr s else read32 addr s
    let stored := if byte then write8 addr (s.regs.read cm) t.2 else write32 addr (s.regs.read cm) t.2
    swap byte rn rd rm s = .ok { stored with regs := s.regs.write cd t.1 } := by
  intro addr t stored
  have hpast : swap byte rn rd rm s = writeReg rd t.1 stored := by
    simp only [swap, beq_false_of_ne hn15, beq_false_of_ne hd15, beq_false_of_ne hm15, beq_false_of_ne hnm,
      beq_false_of_ne hnd, Bool.or_false, failIf_false, except_ok_bind, readReg_of_names hn, readReg_of_names hm]
    rfl
  obtain ⟨hreadRegs, hreadCpsr⟩ := byteOrWordRead_regs_cpsr byte addr s
  obtain ⟨hwriteRegs, hwriteCpsr⟩ := byteOrWordWrite_regs_cpsr byte addr (s.regs.read cm) t.2
  have hregs : stored.regs = s.regs := hwriteRegs.trans hreadRegs
  have hcpsr : stored.cpsr = s.cpsr := hwriteCpsr.trans hreadCpsr
  rw [hpast, writeReg_of_names _ hd15 (hd.congr (congrArg Psr.mode hcpsr)), hregs]

end

theorem exec_swap (byte : Bool) {c : Cond} (rn rd rm : Reg) {s : State} (hc : Cond.passed c s.cpsr = true) :
    exec (if byte then .swpb c rn rd rm else .swp c rn rd rm) s = answer (swap byte rn rd rm s) := by
  cases byte <;> exact whenPassed_of_passed hc _

/-- Settles O35: both instructions run the one skeleton (`exec_swap`), which its first test that holds stops (`swap_of_r15`,
`swap_of_baseClash`) and which else exchanges the register and the memory (`swap_of_operands`). -/
theorem swapExchanges : Obligations.SwapExchanges := by
  unfold Obligations.SwapExchanges
  intro byte c rn rd rm s cn cd cm hc hn hd hm i addr t stored
  have hexec : exec i s = answer (swap byte rn rd rm s) := exec_swap byte rn rd rm hc
  rw [hexec]
  refine ⟨fun hn15 hd15 hm15 hnm hnd => ?exchange, fun h15 => ?r15, fun hn15 hd15 hm15 hclash => ?baseClash⟩
  case exchange => rw [swap_of_operands hn15 hd15 hm15 hnm hnd hn hd hm, answer_ok]
  case r15 => rw [swap_of_r15 h15, answer_error]
  case baseClash => rw [swap_of_baseClash hn15 hd15 hm15 hclash, answer_error]

/-! ### The tests of the halfword skeleton -/

/-- A test before the rest of a handler either stops it or lets it run. -/
theorem failIf_bind {α : Type} (b : Bool) (r : FaultReason) (s : State) (f : Unit → Except Fault α) :
    (failIf b r s >>= f) = if b = true then .error (stop r s) else f () := by
  cases b <;> rfl

/-- The UNPREDICTABLE cases in their order, the first that holds winning (`47_arm_swap_halfword.md` R711). -/
theorem halfCheck_eq (p w : Bool) (rn rd : Reg) (off : HalfOffset) (s : State) :
    halfCheck p w rn rd off s =
      if p = false ∧ w = true then .error (stop (.unpredictable .halfwordPostWriteback) s)
      else if rd = 15 then .error (stop (.unpredictable .halfwordR15) s)
      else if halfOffsetIsR15 off = true then .error (stop (.unpredictable .halfwordOffsetR15) s)
      else if writesBack p w = true ∧ rn = 15 then .error (stop (.unpredictable .halfwordWritebackR15) s)
      else if writesBack p w = true ∧ rn = rd then .error (stop (.unpredictable .halfwordWritebackRnIsRd) s)
      else .ok () := by
  simp only [halfCheck, failIf_bind, Bool.and_eq_true, Bool.not_eq_true', beq_iff_eq]
  simp only [failIf, Bool.and_eq_true, beq_iff_eq]

/-- Every load and store of the category makes the tests first, and faults with the one that stops it
(`47_arm_swap_halfword.md` R711). -/
theorem exec_of_halfCheck_error {i : Instr} {c : Cond} {p u w : Bool} {rn rd : Reg} {off : HalfOffset} {s : State}
    {e : Fault} (hc : Cond.passed c s.cpsr = true)
    (hi : i = halfStoreInstr c p u w rn rd off ∨ ∃ k, i = halfLoadInstr k c p u w rn rd off)
    (he : halfCheck p w rn rd off s = .error e) : exec i s = .fault e := by
  rcases hi with rfl | ⟨k, rfl⟩
  · rw [exec_halfStoreInstr hc, halfwordStore, he, except_error_bind, answer_error]
  · rw [exec_halfLoadInstr hc, halfwordLoad, he, except_error_bind, answer_error]

/-- Settles O38: every form answers the fault of the tests (`exec_of_halfCheck_error`), and each clause is one branch of their
chain, the branches before it shut by the clause's other hypotheses (`halfCheck_eq`). A base that is Rd is not R15, as Rd is
not. The signed stores have no other meaning than their fault (`47_arm_swap_halfword.md` R717). -/
theorem halfwordFaults : Obligations.HalfwordFaults := by
  unfold Obligations.HalfwordFaults
  intro i c p u w rn rd off s hc wb faults
  refine ⟨fun hi => ?_, fun imm hi h lo => whenPassed_of_passed hc _⟩
  have hfaults {k : UnpredictableCase} (h : halfCheck p w rn rd off s = .error (stop (.unpredictable k) s)) : faults k :=
    exec_of_halfCheck_error hc hi h
  have hpost (hpw : p = true ∨ w = false) : ¬(p = false ∧ w = true) := by simpa [Decidable.imp_iff_not_or] using hpw
  have hoffset (h : halfOffsetIsR15 off = false) : ¬halfOffsetIsR15 off = true := Bool.eq_false_iff.mp h
  refine ⟨fun hp hw => hfaults ?postWriteback, fun hpw hd => hfaults ?r15, fun hpw hd hoff => hfaults ?offsetR15,
    fun hpw hd hoff hwb hn => hfaults ?writebackR15, fun hpw hd hoff hwb hnd => hfaults ?writebackRnIsRd⟩
  case postWriteback => rw [halfCheck_eq, if_pos ⟨hp, hw⟩]
  case r15 => rw [halfCheck_eq, if_neg (hpost hpw), if_pos hd]
  case offsetR15 => rw [halfCheck_eq, if_neg (hpost hpw), if_neg hd, if_pos hoff]
  case writebackR15 =>
    rw [halfCheck_eq, if_neg (hpost hpw), if_neg hd, if_neg (hoffset hoff), if_pos ⟨hwb, hn⟩]
  case writebackRnIsRd =>
    have hn15 : ¬(writesBack p w = true ∧ rn = 15) := fun h => hd (hnd.symm.trans h.2)
    rw [halfCheck_eq, if_neg (hpost hpw), if_neg hd, if_neg (hoffset hoff), if_neg hn15, if_pos ⟨hwb, hnd⟩]

end Sys2Proof.Machine
end

section
/-!
PROOFS. Thumb arithmetic beyond the low-register formats (`49_thumb.md` R833, R836 to R838, R862 to R865) and the Thumb branches
(R876, R878 to R880): the multiply past its test, the high registers with a jump where the result is R15's, and the immediate
offsets in exact arithmetic.
-/

namespace Sys2Proof.Machine

/-! ### MUL -/

theorem mul_eq_ofNat (a b : Word) : a * b = BitVec.ofNat 32 (a.toNat * b.toNat) :=
  BitVec.eq_of_toNat_eq (by simp)

/-- Past its test the Thumb multiply writes the exact result and its flags (`49_thumb.md` R833). -/
theorem lowMultiply_of_ne {rs rd : LowReg} (s : State) (h : rd ≠ rs) :
    let r := BitVec.ofNat 32 ((s.regs.read (lowCell rs)).toNat * (s.regs.read (lowCell rd)).toNat)
    lowMultiply rs rd s = .ok { s with
      regs := s.regs.write (lowCell rd) r
      cpsr := { s.cpsr with n := r.getLsbD 31, z := decide (r = 0), c := draw s }
      draws := s.draws + 1 } := by
  intro r
  simp only [lowMultiply, beq_false_of_ne h, failIf_false, readReg_lowReg, writeReg_lowReg, except_ok_bind, except_pure,
    mul_eq_ofNat, mulFlags_eq]
  rfl

theorem lowMultiply_self (rd : LowReg) (s : State) :
    lowMultiply rd rd s = .error (stop (.unpredictable .thumbMulRdIsRm) s) := by
  rw [lowMultiply, beq_self_eq_true, failIf_true, except_error_bind]

/-- Settles O45: the multiply past its test, with the drawn C as the free value (`lowMultiply_of_ne`), or stopped by it
(`lowMultiply_self`). -/
theorem thumbMultiply : Obligations.ThumbMultiply := by
  unfold Obligations.ThumbMultiply
  intro rs rd s r
  have hexec : exec (.tMul rs rd) s = answer (lowMultiply rs rd s) := rfl
  rw [hexec]
  refine ⟨fun hne => ⟨draw s, ?product⟩, ?fault⟩
  case product => rw [lowMultiply_of_ne s hne, answer_ok]
  case fault =>
    rintro rfl
    rw [lowMultiply_self, answer_error]

/-! ### High registers -/

/-- A write by an index that names a word is a jump at index 15 and a store elsewhere (`10_state.md` R69). -/
theorem writeReg_eq_ite {i : Reg} {c : RegCell} {s : State} (v : Word) (h : Names s i c) :
    writeReg i v s = .ok (if i = 15 then writePc v s else { s with regs := s.regs.write c v }) := by
  split
  case isTrue h15 => rw [h15, writeReg_15]
  case isFalse h15 => exact writeReg_of_names v h15 h

/-- The high-register operations stop on two low registers and on nothing else (`49_thumb.md` R836 to R838). -/
theorem hiCheck_of_high {h1 h2 : Bool} (s : State) (h : (h1 || h2) = true) : hiCheck h1 h2 s = .ok () := by
  rw [hiCheck, ← Bool.not_or, h, Bool.not_true, failIf_false]

theorem hiCheck_of_low {h1 h2 : Bool} (s : State) (h : (h1 || h2) = false) :
    hiCheck h1 h2 s = .error (stop (.unpredictable .hiRegLowOperands) s) := by
  rw [hiCheck, ← Bool.not_or, h, Bool.not_false, failIf_true]

/-- The flags of a comparison are the exact ones of CMP (`41_shifter_alu.md` R417, R419). -/
theorem setNZCV_subtract (a b : Word) (p : Psr) : p.setNZCV (subtract a b) = exactFlags .cmp a b p.c p :=
  dpFlags_eq .cmp a b p.c p

/-- Settles O46: each operation makes its test first (`hiCheck_of_high`, `hiCheck_of_low`); the result's way into Rd is
`writeReg_eq_ite`, and the comparison's flags are `setNZCV_subtract`. -/
theorem thumbHighRegisters : Obligations.ThumbHighRegisters := by
  unfold Obligations.ThumbHighRegisters
  intro h1 h2 rs rd s cs cd src dst put hs hd
  have hadd : exec (.tAddHi h1 h2 rs rd) s = answer (hiCheck h1 h2 s >>= fun _ =>
      readReg dst s >>= fun a => readReg src s >>= fun b => writeReg dst (a + b) s) := rfl
  have hmov : exec (.tMovHi h1 h2 rs rd) s = answer (hiCheck h1 h2 s >>= fun _ =>
      readReg src s >>= fun b => writeReg dst b s) := rfl
  have hcmp : exec (.tCmpHi h1 h2 rs rd) s = answer (hiCheck h1 h2 s >>= fun _ =>
      readReg dst s >>= fun a => readReg src s >>= fun b =>
        .ok { s with cpsr := s.cpsr.setNZCV (subtract a b) }) := rfl
  rw [hadd, hmov, hcmp]
  refine ⟨fun hhigh => ?high, fun hlow => ?low⟩
  case high =>
    simp only [hiCheck_of_high s hhigh, readReg_of_names hs, readReg_of_names hd, except_ok_bind, writeReg_eq_ite _ hd,
      setNZCV_subtract, answer_ok, put, and_self]
  case low =>
    simp only [hiCheck_of_low s hlow, except_error_bind, answer_error, and_self]

/-! ### Address arithmetic -/

/-- A zero-extended field moved up by `k` is the field's value times `2 ^ k`. -/
theorem zeroExtend_shiftLeft_eq_ofNat {n : Nat} (x : BitVec n) (k : Nat) :
    x.zeroExtend 32 <<< k = BitVec.ofNat 32 (2 ^ k * x.toNat) :=
  BitVec.eq_of_toNat_eq (by simp [Nat.shiftLeft_eq, Nat.mul_comm])

theorem word8Offset_eq (word8 : BitVec 8) : word8Offset word8 = BitVec.ofNat 32 (4 * word8.toNat) :=
  zeroExtend_shiftLeft_eq_ofNat word8 2

theorem sword7Offset_eq (sword7 : BitVec 7) : sword7Offset sword7 = BitVec.ofNat 32 (4 * sword7.toNat) :=
  zeroExtend_shiftLeft_eq_ofNat sword7 2

/-- Settles O49: one register write each, its offset in exact arithmetic (`word8Offset_eq`, `sword7Offset_eq`). -/
theorem thumbAddresses : Obligations.ThumbAddresses := by
  unfold Obligations.ThumbAddresses
  intro rd word8 sword7 s
  rw [← word8Offset_eq, ← sword7Offset_eq]
  have hpc : exec (.tAddPc rd word8) s = answer (writeReg (lowReg rd) (alignWord s.regs.pc + word8Offset word8) s) := rfl
  refine ⟨?pc, fun c13 h13 => ?sp⟩
  case pc =>
    rw [hpc, writeReg_lowReg, answer_ok]
    rfl
  case sp =>
    have hspRd : exec (.tAddSpRd rd word8) s =
        answer (readReg 13 s >>= fun sp => writeReg (lowReg rd) (sp + word8Offset word8) s) := rfl
    have haddSp : exec (.tAddSpImm sword7) s =
        answer (readReg 13 s >>= fun sp => writeReg 13 (sp + sword7Offset sword7) s) := rfl
    have hsubSp : exec (.tSubSpImm sword7) s =
        answer (readReg 13 s >>= fun sp => writeReg 13 (sp - sword7Offset sword7) s) := rfl
    have hwrite (v : Word) : writeReg 13 v s = .ok { s with regs := s.regs.write c13 v } :=
      writeReg_of_names v (by decide) h13
    simp only [hspRd, haddSp, hsubSp, readReg_of_names h13, except_ok_bind, writeReg_lowReg, hwrite, answer_ok, and_self]

/-! ### Branches -/

theorem soff8Offset_eq (soff8 : BitVec 8) : soff8Offset soff8 = BitVec.ofInt 32 (soff8.toInt * 2) :=
  signExtend_shiftLeft_eq_ofInt soff8 1

theorem off11Offset_eq (off11 : BitVec 11) : off11Offset off11 = BitVec.ofInt 32 (off11.toInt * 2) :=
  signExtend_shiftLeft_eq_ofInt off11 1

theorem blHighOffset_eq (off11 : BitVec 11) : blHighOffset off11 = BitVec.ofInt 32 (off11.toInt * 4096) :=
  signExtend_shiftLeft_eq_ofInt off11 12

theorem blLowOffset_eq (off11 : BitVec 11) : blLowOffset off11 = BitVec.ofNat 32 (2 * off11.toNat) :=
  zeroExtend_shiftLeft_eq_ofNat off11 1

/-- Settles O52: the jumps by their offsets in exact arithmetic (`soff8Offset_eq`, `off11Offset_eq`); the halves of BL by the
register write of LR, which the second half makes after reading its old word (`blHighOffset_eq`, `blLowOffset_eq`). -/
theorem thumbBranches : Obligations.ThumbBranches := by
  unfold Obligations.ThumbBranches
  intro c soff8 off11 s
  rw [← soff8Offset_eq, ← off11Offset_eq, ← blHighOffset_eq, ← blLowOffset_eq]
  refine ⟨fun hpassed => if_pos hpassed, fun hfailed => if_neg (Bool.eq_false_iff.mp hfailed), rfl, fun c14 h14 => ?bl⟩
  case bl =>
    have hfirst : exec (.tBlFirst off11) s = answer (writeReg 14 (s.regs.pc + blHighOffset off11) s) := rfl
    have hsecond : exec (.tBlSecond off11) s =
        answer (readReg 14 s >>= fun lr => writeReg 14 ((s.regs.pc - 2) ||| 1) s >>= fun t =>
          .ok (writePc (lr + blLowOffset off11) t)) := rfl
    have hwrite (v : Word) : writeReg 14 v s = .ok { s with regs := s.regs.write c14 v } :=
      writeReg_of_names v (by decide) h14
    simp only [hfirst, hsecond, readReg_of_names h14, hwrite, except_ok_bind, answer_ok, and_self]

end Sys2Proof.Machine
end

section
/-!
PROOFS. The two transfer loops of the block transfers of both encodings (`48_arm_block_coproc_swi.md` R751, R753), as loads and
stores of words at rising addresses.
-/

namespace Sys2Proof.Machine

/-! ### The load loop -/

/-- A word read sees nothing of the registers. -/
theorem memReadAligned_withRegs (a : Word) (s : State) (b : RegBank) :
    memReadAligned a { s with regs := b } = ((memReadAligned a s).1, { (memReadAligned a s).2 with regs := b }) := by
  simp only [memReadAligned, read32, readByte_eq]
  rfl

theorem loadWords_withRegs (n : Nat) (a : Word) (s : State) (b : RegBank) :
    loadWords n a { s with regs := b } = ((loadWords n a s).1, { (loadWords n a s).2 with regs := b }) := by
  induction n generalizing a s with
  | zero => rfl
  | succ n ih => simp only [loadWords, memReadAligned_withRegs, ih]

theorem length_loadWords (n : Nat) (a : Word) (s : State) : (loadWords n a s).1.length = n := by
  induction n generalizing a s with
  | zero => rfl
  | succ n ih => exact congrArg (· + 1) (ih _ _)

/-- The address past `n + 1` words from `a` is that past `n` words from the next one. -/
theorem address_succ (a : Word) (n : Nat) :
    a + BitVec.ofNat 32 (4 * (n + 1)) = a + 4 + BitVec.ofNat 32 (4 * n) := by
  rw [Nat.mul_succ, Nat.add_comm, BitVec.ofNat_add, BitVec.add_assoc]
  rfl

/-- The last of `n + 1` words is read after the others, at the address past them. -/
theorem loadWords_succ_last (n : Nat) (a : Word) (s : State) :
    let l := loadWords n a s
    let v := memReadAligned (a + BitVec.ofNat 32 (4 * n)) l.2
    loadWords (n + 1) a s = (l.1 ++ [v.1], v.2) := by
  induction n generalizing a s with
  | zero => simp [loadWords]
  | succ n ih =>
    rw [address_succ]
    exact congrArg (fun r => ((memReadAligned a s).1 :: r.1, r.2)) (ih (a + 4) (memReadAligned a s).2)

/-- Words past the end of the list of registers are left out. -/
theorem writeAll_append_right {cs : List RegCell} {vs : List Word} (ws : List Word) (b : RegBank)
    (h : cs.length = vs.length) : writeAll cs (vs ++ ws) b = writeAll cs vs b := by
  induction cs generalizing vs b with
  | nil =>
    obtain rfl : vs = [] := List.length_eq_zero_iff.mp h.symm
    cases ws <;> rfl
  | cons c cs ih =>
    cases vs with
    | nil => cases h
    | cons v vs => exact ih (b.write c v) (Nat.succ.inj h)

/-- The load loop over registers below R15 reads the words from `a` on and writes each to its register
(`48_arm_block_coproc_swi.md` R751, R753). -/
theorem loadRegs_of_cells {userBank : Bool} {is : List Reg} {cs : List RegCell} {s : State} (a : Word)
    (h : List.Forall₂ (fun i c => i ≠ 15 ∧ resolve (blockBank userBank s) i.toNat = .ok c) is cs) :
    let l := loadWords is.length a s
    loadRegs userBank is a s =
      .ok (a + BitVec.ofNat 32 (4 * is.length), { l.2 with regs := writeAll cs l.1 s.regs }) := by
  generalize hm : blockBank userBank s = m at h
  induction h generalizing a s with
  | nil => simp [loadRegs, loadWords, writeAll]
  | @cons i c is cs hi _ ih =>
    obtain ⟨h15, hc⟩ := hi
    set v := memReadAligned a s
    obtain ⟨hregs, hcpsr⟩ : v.2.regs = s.regs ∧ v.2.cpsr = s.cpsr := (read32_onlyLatch _ s).regs_cpsr
    have hbank : blockBank userBank v.2 = m := by rw [← hm, blockBank, blockBank, hcpsr]
    have hwrite : writeRegAs (blockBank userBank v.2) i v.1 v.2 = .ok { v.2 with regs := s.regs.write c v.1 } :=
      writeRegAs_eq_ok.mpr (.inr ⟨h15, c, hbank ▸ hc, by rw [hregs]⟩)
    have hrest := ih (s := { v.2 with regs := s.regs.write c v.1 }) (a + 4) hbank
    rw [loadWords_withRegs] at hrest
    rw [List.length_cons, address_succ]
    exact (congrArg (· >>= loadRegs userBank is (a + 4)) hwrite).trans hrest

/-! ### The store loop -/

/-- What the store loop stores: R15 as R757 has it, another register's word (`48_arm_block_coproc_swi.md` R753). -/
theorem storedReg_eq_ok {userBank : Bool} {i : Reg} {s : State} {v : Word} :
    storedReg userBank i s = .ok v ↔
      (i = 15 ∧ v = storedPc s) ∨
      (i ≠ 15 ∧ ∃ c, resolve (blockBank userBank s) i.toNat = .ok c ∧ v = s.regs.read c) := by
  unfold storedReg
  by_cases h15 : i = 15
  · simp only [h15, if_true, Except.ok.injEq, true_and, ne_eq, not_true_eq_false, false_and, or_false, eq_comm]
  · simp only [h15, if_false, readRegAs_eq_ok, false_and, false_or, ne_eq, not_false_eq_true, true_and]

/-- A value the store loop can read is the same after any store. -/
theorem storedReg_after_stores {userBank : Bool} {i : Reg} {v : Word} {ks : List Nat} {s t : State}
    (ht : OnlyStores ks s t) (h : storedReg userBank i s = .ok v) : storedReg userBank i t = .ok v := by
  obtain ⟨m, rfl, -, -⟩ := ht
  have hv := storedReg_eq_ok.mp h
  exact storedReg_eq_ok.mpr hv

/-- The store loop lays down the registers' words as they were before it (`48_arm_block_coproc_swi.md` R751, R753). -/
theorem storeRegs_of_values {userBank : Bool} {is : List Reg} {vs : List Word} {s : State} (a : Word)
    (h : List.Forall₂ (fun i v => storedReg userBank i s = .ok v) is vs) :
    storeRegs userBank is a s = .ok (storeWords vs a s) := by
  induction is generalizing vs a s with
  | nil =>
    cases h
    rfl
  | cons i is ih =>
    obtain _ | @⟨_, v, _, _, hi, hrest⟩ := h
    rw [storeRegs, hi, except_ok_bind]
    exact ih (a + 4) (hrest.imp fun _ _ => storedReg_after_stores (write32_onlyStores (alignWord a) v s))

theorem storeWords_regs_cpsr (vs : List Word) (a : Word) (s : State) :
    (storeWords vs a s).regs = s.regs ∧ (storeWords vs a s).cpsr = s.cpsr := by
  induction vs generalizing a s with
  | nil => exact ⟨rfl, rfl⟩
  | cons v vs ih =>
    obtain ⟨hregs, hcpsr⟩ := (write32_onlyStores (alignWord a) v s).regs_cpsr
    exact ⟨(ih _ _).1.trans hregs, (ih _ _).2.trans hcpsr⟩

end Sys2Proof.Machine
end

section
/-!
PROOFS. The Thumb multiple transfers (`49_thumb.md` R866 to R869): rlist as a list of low registers, and PUSH, POP, LDMIA and
STMIA past their tests or stopped by them.
-/

namespace Sys2Proof.Machine

/-! ### rlist as a list of low registers -/

/-- The numbers of the low registers rlist names, in rising order (`49_thumb.md` R866). -/
def listedLow (rlist : BitVec 8) : List (Fin 8) := (List.finRange 8).filter fun j => rlist.getLsbD j.val

/-- Their indices. -/
def listedRegs (rlist : BitVec 8) : List Reg := (listedLow rlist).map fun j => lowReg (BitVec.ofFin j)

/-- The words they are. -/
def listedCells (rlist : BitVec 8) : List RegCell := (listedLow rlist).map fun j => lowCell (BitVec.ofFin j)

theorem length_listedRegs (rlist : BitVec 8) : (listedRegs rlist).length = (listedLow rlist).length := List.length_map _

theorem length_listedCells (rlist : BitVec 8) : (listedCells rlist).length = (listedLow rlist).length := List.length_map _

theorem listedLow_eq_nil_iff (rlist : BitVec 8) : listedLow rlist = [] ↔ rlist = 0 := by
  rw [listedLow, List.filter_eq_nil_iff]
  refine ⟨fun h => BitVec.eq_of_getLsbD_eq fun j hj => ?_, fun h => by simp [h]⟩
  refine (Bool.eq_false_iff.mpr ?_).trans BitVec.getLsbD_zero.symm
  exact h ⟨j, hj⟩ (List.mem_finRange _)

theorem lowReg_inj {i j : LowReg} : lowReg i = lowReg j ↔ i = j := by
  rw [← BitVec.toNat_inj, toNat_lowReg, toNat_lowReg, BitVec.toNat_inj]

/-- The lowest listed register is the one with no listed register below it. -/
theorem head?_listedRegs_eq_some_iff (rlist : BitVec 8) (rb : LowReg) :
    (listedRegs rlist).head? = some (lowReg rb) ↔
      rlist.getLsbD rb.toNat = true ∧ ∀ j < rb.toNat, rlist.getLsbD j = false := by
  rw [listedRegs, listedLow, List.head?_map, List.head?_filter, Option.map_eq_some_iff]
  simp only [List.find?_eq_some_iff_getElem, List.getElem_finRange, Bool.not_eq_true', lowReg_inj]
  constructor
  · rintro ⟨_, ⟨hlisted, i, hi, rfl, hlowest⟩, rfl⟩
    exact ⟨hlisted, hlowest⟩
  · rintro ⟨hlisted, hlowest⟩
    exact ⟨rb.toFin, ⟨hlisted, rb.toNat, (List.length_finRange).symm ▸ rb.isLt, rfl, hlowest⟩, rfl⟩

/-- A 16-bit list names its low registers, then those from R8 on. -/
theorem regList_eq_append (list : BitVec 16) :
    regList list =
      (((List.finRange 8).filter fun j => list.getLsbD j.val).map fun j => lowReg (BitVec.ofFin j)) ++
        (([8, 9, 10, 11, 12, 13, 14, 15] : List Reg).filter fun i => list.getLsbD i.toNat) := by
  have hall : ([0, 1, 2, 3, 4, 5, 6, 7, 8, 9, 10, 11, 12, 13, 14, 15] : List Reg) =
      (List.finRange 8).map (fun j => lowReg (BitVec.ofFin j)) ++ [8, 9, 10, 11, 12, 13, 14, 15] := by decide
  have hval (j : Fin 8) : (lowReg (BitVec.ofFin j)).toNat = j.val := toNat_lowReg _
  rw [regList, hall, List.filter_append, List.filter_map]
  simp only [Function.comp_def, hval]

/-- The bits of a stack list: rlist's, and the further register's where there is one (`49_thumb.md` R866, R867). -/
theorem getLsbD_stackList (r : Bool) (i : Reg) (rlist : BitVec 8) {k : Nat} (hk : k < 16) :
    (stackList r i rlist).getLsbD k = (rlist.getLsbD k || (r && decide (k = i.toNat))) := by
  have hone : (1#16 <<< i.toNat).getLsbD k = decide (k = i.toNat) := by
    rw [← BitVec.twoPow_eq, BitVec.getLsbD_twoPow, decide_eq_true i.isLt, Bool.true_and, decide_eq_decide, eq_comm]
  have hwide : (rlist.zeroExtend 16).getLsbD k = rlist.getLsbD k := by
    rw [BitVec.getLsbD_setWidth, decide_eq_true hk, Bool.true_and]
  cases r with
  | false => rw [stackList, if_neg Bool.false_ne_true, BitVec.or_zero, hwide, Bool.false_and, Bool.or_false]
  | true => rw [stackList, if_pos rfl, BitVec.getLsbD_or, hone, hwide, Bool.true_and]

theorem filter_highRegs (r : Bool) {i : Reg} (hi : 8 ≤ i.toNat) :
    (([8, 9, 10, 11, 12, 13, 14, 15] : List Reg).filter fun k => r && decide (k.toNat = i.toNat)) =
      if r then [i] else [] := by
  revert r i
  decide

/-- A stack list names the low registers of rlist, then the further register (`49_thumb.md` R866, R867). -/
theorem regList_stackList (r : Bool) {i : Reg} (rlist : BitVec 8) (hi : 8 ≤ i.toNat) :
    regList (stackList r i rlist) = listedRegs rlist ++ (if r then [i] else []) := by
  have hlow (j : Fin 8) : (stackList r i rlist).getLsbD j.val = rlist.getLsbD j.val := by
    rw [getLsbD_stackList r i rlist (by omega), decide_eq_false (by omega), Bool.and_false, Bool.or_false]
  have hhigh : ∀ k ∈ ([8, 9, 10, 11, 12, 13, 14, 15] : List Reg),
      (stackList r i rlist).getLsbD k.toNat = (r && decide (k.toNat = i.toNat)) := by
    intro k hk
    have h8 : 8 ≤ k.toNat := by revert k; decide
    rw [getLsbD_stackList r i rlist k.isLt, BitVec.getLsbD_of_ge rlist _ h8, Bool.false_or]
  rw [regList_eq_append, List.filter_congr hhigh, filter_highRegs r hi]
  simp only [hlow]
  rfl

/-- rlist alone is a stack list without a further register. -/
theorem regList_zeroExtend (rlist : BitVec 8) : regList (rlist.zeroExtend 16) = listedRegs rlist := by
  have h := regList_stackList false (i := 14) rlist (by decide)
  rwa [stackList, if_neg Bool.false_ne_true, BitVec.or_zero, if_neg Bool.false_ne_true, List.append_nil] at h

theorem isEmpty_regList_stackList (r : Bool) {i : Reg} (rlist : BitVec 8) (hi : 8 ≤ i.toNat) :
    (regList (stackList r i rlist)).isEmpty = decide (r = false ∧ rlist = 0) := by
  rw [regList_stackList r rlist hi, Bool.eq_iff_iff, List.isEmpty_iff, decide_eq_true_iff, List.append_eq_nil_iff,
    listedRegs, List.map_eq_nil_iff, listedLow_eq_nil_iff]
  cases r <;> simp

theorem blockBytes_listedRegs (rlist : BitVec 8) :
    blockBytes (listedRegs rlist) = BitVec.ofNat 32 (4 * (listedLow rlist).length) := by
  rw [blockBytes, length_listedRegs]

theorem blockBytes_stackList (r : Bool) {i : Reg} (rlist : BitVec 8) (hi : 8 ≤ i.toNat) :
    blockBytes (regList (stackList r i rlist)) = BitVec.ofNat 32 (4 * ((listedLow rlist).length + r.toNat)) := by
  rw [blockBytes, regList_stackList r rlist hi, List.length_append, length_listedRegs]
  cases r <;> rfl

/-! ### The loops over rlist -/

/-- The load loop over rlist leaves the listed registers loaded and the next address (`49_thumb.md` R867, R869). -/
theorem loadRegs_listedRegs (rlist : BitVec 8) (a : Word) (s : State) :
    let l := loadWords (listedLow rlist).length a s
    loadRegs false (listedRegs rlist) a s =
      .ok (a + BitVec.ofNat 32 (4 * (listedLow rlist).length),
        { l.2 with regs := writeAll (listedCells rlist) l.1 s.regs }) := by
  have hcells : List.Forall₂ (fun i c => i ≠ 15 ∧ resolve (blockBank false s) i.toNat = .ok c)
      (listedRegs rlist) (listedCells rlist) := by
    rw [listedRegs, listedCells, List.forall₂_map_left_iff, List.forall₂_map_right_iff, List.forall₂_same]
    exact fun j _ => ⟨lowReg_ne_15 _, resolve_lowReg _ _⟩
  rw [← length_listedRegs]
  exact loadRegs_of_cells a hcells

theorem listedRegs_stored (rlist : BitVec 8) (s : State) :
    List.Forall₂ (fun i v => storedReg false i s = .ok v) (listedRegs rlist) ((listedCells rlist).map s.regs.read) := by
  rw [listedRegs, listedCells, List.map_map, List.forall₂_map_left_iff, List.forall₂_map_right_iff, List.forall₂_same]
  exact fun j _ => storedReg_eq_ok.mpr (.inr ⟨lowReg_ne_15 _, _, resolve_lowReg _ _, rfl⟩)

/-! ### PUSH and POP -/

section
variable {r : Bool} {rlist : BitVec 8} {s : State} {c13 c14 : RegCell}

/-- With a register listed, PUSH stores below SP and moves SP down (`49_thumb.md` R866). -/
theorem push_of_listed (h : r = true ∨ rlist ≠ 0) (h13 : Names s 13 c13) (h14 : Names s 14 c14) :
    let base := s.regs.read c13 - BitVec.ofNat 32 (4 * ((listedLow rlist).length + r.toNat))
    let vs := (listedCells rlist).map s.regs.read ++ (if r then [s.regs.read c14] else [])
    push r rlist s = .ok { storeWords vs base s with regs := s.regs.write c13 base } := by
  intro base vs
  have htest : decide (r = false ∧ rlist = 0) = false := decide_eq_false (by simpa [Decidable.imp_iff_not_or] using h)
  have hstored : List.Forall₂ (fun i v => storedReg false i s = .ok v) (regList (stackList r 14 rlist)) vs := by
    rw [regList_stackList r rlist (by decide)]
    refine List.rel_append (listedRegs_stored rlist s) ?_
    cases r with
    | false => exact .nil
    | true => exact .cons (storedReg_eq_ok.mpr (.inr ⟨by decide, c14, h14, rfl⟩)) .nil
  obtain ⟨hregs, hcpsr⟩ := storeWords_regs_cpsr vs base s
  have hsp : Names (storeWords vs base s) 13 c13 := h13.congr (congrArg Psr.mode hcpsr)
  rw [push, isEmpty_regList_stackList r rlist (by decide), htest, failIf_false, except_ok_bind, readReg_of_names h13,
    except_ok_bind, blockBytes_stackList r rlist (by decide), storeRegs_of_values base hstored, except_ok_bind,
    writeReg_of_names base (by decide) hsp, hregs]

theorem push_of_empty (hr : r = false) (h : rlist = 0) :
    push r rlist s = .error (stop (.unpredictable .emptyRegisterList) s) := by
  have htest : decide (r = false ∧ rlist = 0) = true := decide_eq_true ⟨hr, h⟩
  rw [push, isEmpty_regList_stackList r rlist (by decide), htest, failIf_true, except_error_bind]

theorem pop_of_empty (hr : r = false) (h : rlist = 0) :
    pop r rlist s = .error (stop (.unpredictable .emptyRegisterList) s) := by
  have htest : decide (r = false ∧ rlist = 0) = true := decide_eq_true ⟨hr, h⟩
  rw [pop, isEmpty_regList_stackList r rlist (by decide), htest, failIf_true, except_error_bind]

/-- With a register listed, POP loads the listed low registers and then moves SP, with R15 after reading the word for it
(`49_thumb.md` R867). -/
theorem pop_of_listed (h : r = true ∨ rlist ≠ 0) (h13 : Names s 13 c13) :
    let sp := s.regs.read c13
    let final := sp + BitVec.ofNat 32 (4 * ((listedLow rlist).length + r.toNat))
    let l := loadWords (listedLow rlist).length sp s
    let loaded : State := { l.2 with regs := writeAll (listedCells rlist) l.1 s.regs }
    let v := memReadAligned (sp + BitVec.ofNat 32 (4 * (listedLow rlist).length)) loaded
    pop r rlist s =
      if r then writeReg 13 final v.2 >>= fun t => .ok (writePc v.1 t) else writeReg 13 final loaded := by
  have htest : decide (r = false ∧ rlist = 0) = false := decide_eq_false (by simpa [Decidable.imp_iff_not_or] using h)
  rw [pop, isEmpty_regList_stackList r rlist (by decide), htest, failIf_false, except_ok_bind, readReg_of_names h13,
    except_ok_bind, regList_zeroExtend, loadRegs_listedRegs, except_ok_bind, blockBytes_stackList r rlist (by decide)]
  rfl

/-- Without R15, the loads and the move of SP are all (`49_thumb.md` R867). -/
theorem pop_without_pc (h : rlist ≠ 0) (h13 : Names s 13 c13) :
    let n := (listedLow rlist).length
    let sp := s.regs.read c13
    let l := loadWords n sp s
    pop false rlist s = .ok { l.2 with
      regs := (writeAll (listedCells rlist) l.1 s.regs).write c13 (sp + BitVec.ofNat 32 (4 * n)) } := by
  intro n sp l
  have hcpsr : l.2.cpsr = s.cpsr := (loadWords_onlyLatch n sp s).regs_cpsr.2
  have hsp : Names { l.2 with regs := writeAll (listedCells rlist) l.1 s.regs } 13 c13 :=
    h13.congr (congrArg Psr.mode hcpsr)
  rw [pop_of_listed (.inr h) h13]
  exact writeReg_of_names _ (by decide) hsp

/-- With R15, one word more is loaded, SP moves past it too, and it is jumped to (`49_thumb.md` R867). -/
theorem pop_with_pc (h13 : Names s 13 c13) :
    let n := (listedLow rlist).length + 1
    let sp := s.regs.read c13
    let l := loadWords n sp s
    let popped : State := { l.2 with
      regs := (writeAll (listedCells rlist) l.1 s.regs).write c13 (sp + BitVec.ofNat 32 (4 * n)) }
    ∃ v, l.1.getLast? = some v ∧ pop true rlist s = .ok (writePc v popped) := by
  intro n sp l popped
  let low := loadWords (listedLow rlist).length sp s
  let v := memReadAligned (sp + BitVec.ofNat 32 (4 * (listedLow rlist).length)) low.2
  let loaded : State := { v.2 with regs := writeAll (listedCells rlist) low.1 s.regs }
  have hl : l = (low.1 ++ [v.1], v.2) := loadWords_succ_last _ sp s
  have hcpsr : v.2.cpsr = s.cpsr := by
    have h := (loadWords_onlyLatch n sp s).regs_cpsr.2
    rwa [show loadWords n sp s = _ from hl] at h
  have hsp : Names loaded 13 c13 := h13.congr (congrArg Psr.mode hcpsr)
  have hcells : (listedCells rlist).length = low.1.length :=
    (length_listedCells rlist).trans (length_loadWords _ sp s).symm
  have hpopped : popped = { loaded with regs := loaded.regs.write c13 (sp + BitVec.ofNat 32 (4 * n)) } := by
    simp only [popped, hl, writeAll_append_right [v.1] s.regs hcells, loaded]
  have hpop : pop true rlist s =
      writeReg 13 (sp + BitVec.ofNat 32 (4 * n)) loaded >>= fun t => .ok (writePc v.1 t) := by
    rw [pop_of_listed (.inl rfl) h13, if_pos rfl, memReadAligned_withRegs]
    rfl
  refine ⟨v.1, by rw [hl, List.getLast?_concat], ?_⟩
  rw [hpop, writeReg_of_names _ (by decide) hsp, except_ok_bind, hpopped]

end

/-- Settles O50: both instructions stop on an empty list alone (`push_of_empty`, `pop_of_empty`); PUSH stores the registers'
words (`push_of_listed`), POP loads the listed registers (`pop_without_pc`) and, with R15, jumps to the last word loaded
(`pop_with_pc`). -/
theorem thumbStack : Obligations.ThumbStack := by
  unfold Obligations.ThumbStack
  intro r rlist s c13 c14 h13 h14 low cells n sp vs l popped
  have hpush : exec (.tPush r rlist) s = answer (push r rlist s) := rfl
  have hpop : exec (.tPop r rlist) s = answer (pop r rlist s) := rfl
  rw [hpush, hpop]
  refine ⟨fun h => ?push, fun hr h => ?withoutPc, fun hr => ?withPc, fun hr h => ?empty⟩
  case push => exact congrArg answer (push_of_listed h h13 h14)
  case withoutPc =>
    subst hr
    exact congrArg answer (pop_without_pc h h13)
  case withPc =>
    subst hr
    obtain ⟨v, hv, hpc⟩ := pop_with_pc (rlist := rlist) h13
    exact ⟨v, hv, congrArg answer hpc⟩
  case empty => rw [push_of_empty hr h, pop_of_empty hr h, answer_error, and_self]

/-! ### LDMIA and STMIA -/

section
variable {rb : LowReg} {rlist : BitVec 8} {s : State}

/-- With a register listed, LDMIA loads from the base up and then moves a base that was not listed (`49_thumb.md` R869). -/
theorem lowLoadMultiple_of_listed (h : rlist ≠ 0) :
    let base := s.regs.read (lowCell rb)
    let l := loadWords (listedLow rlist).length base s
    let loaded := writeAll (listedCells rlist) l.1 s.regs
    let final := base + BitVec.ofNat 32 (4 * (listedLow rlist).length)
    lowLoadMultiple rb rlist s =
      .ok { l.2 with regs := if rlist.getLsbD rb.toNat then loaded else loaded.write (lowCell rb) final } := by
  intro base l loaded final
  simp only [lowLoadMultiple, beq_false_of_ne h, failIf_false, except_ok_bind, readReg_lowReg, regList_zeroExtend,
    blockBytes_listedRegs, loadRegs_listedRegs]
  rw [writeBack_of_names _ (names_lowReg _ rb) fun _ => lowReg_ne_15 rb]
  cases rlist.getLsbD rb.toNat <;> rfl

/-- STMIA stops on a listed base unless it is the lowest (`49_thumb.md` R868). -/
theorem baseNotFirst_eq_true_iff :
    (rlist.getLsbD rb.toNat && (listedRegs rlist).head? != some (lowReg rb)) = true ↔
      rlist.getLsbD rb.toNat = true ∧ ∃ j < rb.toNat, rlist.getLsbD j = true := by
  rw [Bool.and_eq_true, bne_iff_ne, ne_eq, head?_listedRegs_eq_some_iff]
  refine and_congr_right fun hlisted => ?_
  simp [hlisted]

/-- Past both tests STMIA stores from the base up and then moves the base (`49_thumb.md` R868). -/
theorem lowStoreMultiple_of_listed (h : rlist ≠ 0)
    (hfirst : rlist.getLsbD rb.toNat = true → ∀ j : Nat, j < rb.toNat → rlist.getLsbD j = false) :
    let base := s.regs.read (lowCell rb)
    let final := base + BitVec.ofNat 32 (4 * (listedLow rlist).length)
    lowStoreMultiple rb rlist s = .ok { storeWords ((listedCells rlist).map s.regs.read) base s with
      regs := s.regs.write (lowCell rb) final } := by
  intro base final
  have htest : (rlist.getLsbD rb.toNat && (listedRegs rlist).head? != some (lowReg rb)) = false := by
    rw [Bool.eq_false_iff, ne_eq, baseNotFirst_eq_true_iff]
    rintro ⟨hlisted, j, hj, hbelow⟩
    rw [hfirst hlisted j hj] at hbelow
    cases hbelow
  simp only [lowStoreMultiple, beq_false_of_ne h, failIf_false, except_ok_bind, readReg_lowReg, regList_zeroExtend,
    blockBytes_listedRegs, htest, storeRegs_of_values _ (listedRegs_stored rlist s), writeReg_lowReg,
    (storeWords_regs_cpsr _ _ s).1]
  rfl

theorem lowStoreMultiple_of_baseNotFirst {j : Nat} (hlisted : rlist.getLsbD rb.toNat = true) (hj : j < rb.toNat)
    (hbelow : rlist.getLsbD j = true) :
    lowStoreMultiple rb rlist s = .error (stop (.unpredictable .stmWritebackBaseNotFirst) s) := by
  have h : rlist ≠ 0 := by
    rintro rfl
    cases hlisted.symm.trans BitVec.getLsbD_zero
  have htest := baseNotFirst_eq_true_iff.mpr ⟨hlisted, j, hj, hbelow⟩
  rw [lowStoreMultiple, beq_false_of_ne h, failIf_false, except_ok_bind, regList_zeroExtend, htest, failIf_true,
    except_error_bind]

end

theorem lowLoadMultiple_of_empty (rb : LowReg) (s : State) :
    lowLoadMultiple rb 0 s = .error (stop (.unpredictable .emptyRegisterList) s) := rfl

theorem lowStoreMultiple_of_empty (rb : LowReg) (s : State) :
    lowStoreMultiple rb 0 s = .error (stop (.unpredictable .emptyRegisterList) s) := rfl

/-- Settles O51: both instructions stop on an empty list, STMIA also on a listed base that is not the lowest
(`lowStoreMultiple_of_baseNotFirst`), and else transfer the listed registers (`lowLoadMultiple_of_listed`,
`lowStoreMultiple_of_listed`). -/
theorem thumbMultiple : Obligations.ThumbMultiple := by
  unfold Obligations.ThumbMultiple
  intro rb rlist s low cells base final l loaded
  have hload : exec (.tLdmia rb rlist) s = answer (lowLoadMultiple rb rlist s) := rfl
  have hstore : exec (.tStmia rb rlist) s = answer (lowStoreMultiple rb rlist s) := rfl
  rw [hload, hstore]
  refine ⟨fun h => ?load, fun h hfirst => ?store, ?empty, fun j hlisted hj hbelow => ?notFirst⟩
  case load => exact congrArg answer (lowLoadMultiple_of_listed h)
  case store => exact congrArg answer (lowStoreMultiple_of_listed h hfirst)
  case empty =>
    rintro rfl
    rw [lowLoadMultiple_of_empty, lowStoreMultiple_of_empty, answer_error, and_self]
  case notFirst => rw [lowStoreMultiple_of_baseNotFirst hlisted hj hbelow, answer_error]

end Sys2Proof.Machine
end

section
/-!
PROOFS. What an instruction may change, in one relation: the registers, bytes, status bits and latch it is granted, and of the
program counter only an aligned jump. Each operation and each handler keeps to its grant, so every instruction does; the frames
and the invariants of a step are read off that.
-/

namespace Sys2Proof.Machine

/-! ### What a sequence answers -/

/-- Whatever `x` answers, `P` holds of it. -/
structure Yields {α : Type} (x : Except Fault α) (P : α → Prop) : Prop where
  of_ok : ∀ a, x = .ok a → P a

theorem Yields.ok {α : Type} {a : α} {P : α → Prop} (h : P a) : Yields (.ok a) P :=
  ⟨fun _ ha => Except.ok.inj ha ▸ h⟩

theorem Yields.error {α : Type} (f : Fault) (P : α → Prop) : Yields (.error f) P := ⟨fun _ h => by cases h⟩

theorem Yields.bind {α β : Type} {x : Except Fault α} {f : α → Except Fault β} {P : α → Prop} {Q : β → Prop}
    (hx : Yields x P) (hf : ∀ a, P a → Yields (f a) Q) : Yields (x >>= f) Q := by
  cases x with
  | error e => exact .error e Q
  | ok a => exact hf a (hx.of_ok a rfl)

theorem Yields.imp {α : Type} {x : Except Fault α} {P Q : α → Prop} (hx : Yields x P) (h : ∀ a, P a → Q a) :
    Yields x Q := ⟨fun a ha => h a (hx.of_ok a ha)⟩

theorem failIf_yields (b : Bool) (r : FaultReason) (s : State) : Yields (failIf b r s) fun _ => b = false :=
  ⟨fun _ h => failIf_eq_ok.mp h⟩

/-! ### The grant -/

/-- What an operation may change: register words, storage addresses, bits of the CPSR, a saved status word, the open-bus
latch; and whether it may enter an exception. -/
structure Effect where
  regs : RegCell → Prop
  cells : List Nat
  status : StatusEffect
  saves : Bool
  latch : Bool
  enters : Bool

/-- `t` is `s` in every field that no instruction touches. -/
def Untouched (s t : State) : Prop :=
  t = { s with
    regs := t.regs, cpsr := t.cpsr, spsr := t.spsr, mem := t.mem, openBusLatch := t.openBusLatch
    flushRequested := t.flushRequested, draws := t.draws }

/-- The control bits of a status word but T are as they were (`45_arm_psr_transfer.md` R604). -/
def ControlKept (p q : Psr) : Prop := q.mode = p.mode ∧ q.i = p.i ∧ q.f = p.f

/-- Neither the place nor the encoding changed, and no flush was requested (`40_pipeline.md` R361). -/
def Stays (s t : State) : Prop :=
  t.flushRequested = s.flushRequested ∧ t.regs.pc = s.regs.pc ∧ t.cpsr.t = s.cpsr.t

/-- A flush was requested, to an aligned place (`44_arm_branch.md` R556). -/
def Jumps (t : State) : Prop := t.flushRequested = true ∧ PcAligned t

/-- From `s` to `t` nothing changed but what `E` grants; from User mode without an exception the control bits but T stay, and
of the saved status words all but the dummy (`60_exceptions.md` R920). -/
structure Effect.Allows (E : Effect) (s t : State) : Prop where
  untouched : Untouched s t
  regs : ∀ c, c ≠ .pc → ¬E.regs c → t.regs.read c = s.regs.read c
  mem : ∀ k, k ∉ E.cells → t.mem.read k = s.mem.read k
  canonical : MemCanonical s → MemCanonical t
  status : E.status.Allows s.cpsr t.cpsr
  spsr : E.saves = false → t.spsr = s.spsr
  latch : E.latch = false → t.openBusLatch = s.openBusLatch
  place : Stays s t ∨ Jumps t
  user : E.enters = false → s.cpsr.mode = userMode →
    ControlKept s.cpsr t.cpsr ∧ t.spsr = { s.spsr with dummy := t.spsr.dummy }

/-- The registers an index names under a mode are granted. -/
def Effect.WritesReg (E : Effect) (m : ModeBits) (i : Reg) : Prop := ∀ c, resolve m i.toNat = .ok c → E.regs c

theorem StatusEffect.allows_refl (e : StatusEffect) (p : Psr) : e.Allows p p := by
  cases e <;> trivial

theorem StatusEffect.allows_trans {e : StatusEffect} {p q r : Psr} (h : e.Allows p q) (h' : e.Allows q r) :
    e.Allows p r := by
  cases e with
  | whole => trivial
  | none => exact Eq.trans h' h
  | nz => exact Eq.trans h' (congrArg (fun x : Psr => { x with n := r.n, z := r.z }) h)
  | nzc => exact Eq.trans h' (congrArg (fun x : Psr => { x with n := r.n, z := r.z, c := r.c }) h)
  | nzcv => exact Eq.trans h' (congrArg (fun x : Psr => { x with n := r.n, z := r.z, c := r.c, v := r.v }) h)
  | t => exact Eq.trans h' (congrArg (fun x : Psr => { x with t := r.t }) h)

/-- The effects on the flags alone. -/
def StatusEffect.flagsOnly : StatusEffect → Bool
  | .none | .nz | .nzc | .nzcv => true
  | .t | .whole => false

theorem StatusEffect.control_of_flagsOnly {e : StatusEffect} {p q : Psr} (he : e.flagsOnly = true)
    (h : e.Allows p q) : q.t = p.t ∧ ControlKept p q := by
  cases e with
  | t | whole => cases he
  | none | nz | nzc | nzcv =>
    rw [show q = _ from h]
    exact ⟨rfl, rfl, rfl, rfl⟩

theorem Untouched.trans {s t u : State} (h : Untouched s t) (h' : Untouched t u) : Untouched s u :=
  Eq.trans h' (congrArg (fun x : State => { x with
    regs := u.regs, cpsr := u.cpsr, spsr := u.spsr, mem := u.mem, openBusLatch := u.openBusLatch
    flushRequested := u.flushRequested, draws := u.draws }) h)

theorem Stays.jumps {s t : State} (h : Stays s t) (hs : Jumps s) : Jumps t := by
  obtain ⟨hreq, hpc, ht⟩ := h
  obtain ⟨hreq', haligned⟩ := hs
  refine ⟨hreq.trans hreq', ?_⟩
  unfold PcAligned at *
  rw [hpc, ht, haligned]

theorem Stays.trans {s t u : State} (h : Stays s t) (h' : Stays t u) : Stays s u :=
  ⟨h'.1.trans h.1, h'.2.1.trans h.2.1, h'.2.2.trans h.2.2⟩

theorem Effect.Allows.refl (E : Effect) (s : State) : E.Allows s s where
  untouched := rfl
  regs _ _ _ := rfl
  mem _ _ := rfl
  canonical := id
  status := E.status.allows_refl s.cpsr
  spsr _ := rfl
  latch _ := rfl
  place := .inl ⟨rfl, rfl, rfl⟩
  user _ _ := ⟨⟨rfl, rfl, rfl⟩, rfl⟩

theorem Effect.Allows.trans {E : Effect} {s t u : State} (h : E.Allows s t) (h' : E.Allows t u) : E.Allows s u where
  untouched := h.untouched.trans h'.untouched
  regs c hc hE := (h'.regs c hc hE).trans (h.regs c hc hE)
  mem k hk := (h'.mem k hk).trans (h.mem k hk)
  canonical hs := h'.canonical (h.canonical hs)
  status := StatusEffect.allows_trans h.status h'.status
  spsr hE := (h'.spsr hE).trans (h.spsr hE)
  latch hE := (h'.latch hE).trans (h.latch hE)
  place := by
    rcases h'.place with hstay | hjump
    · exact h.place.imp (·.trans hstay) hstay.jumps
    · exact .inr hjump
  user hE hs := by
    obtain ⟨⟨hmode, hi, hf⟩, hspsr⟩ := h.user hE hs
    obtain ⟨⟨hmode', hi', hf'⟩, hspsr'⟩ := h'.user hE (hmode.trans hs)
    refine ⟨⟨hmode'.trans hmode, hi'.trans hi, hf'.trans hf⟩, ?_⟩
    exact hspsr'.trans (congrArg (fun b : SpsrBank => { b with dummy := u.spsr.dummy }) hspsr)

/-! ### Operations that leave the CPSR -/

/-- `E` allows the change, and the CPSR is as it was. -/
structure Effect.Moves (E : Effect) (s t : State) : Prop extends E.Allows s t where
  cpsr : t.cpsr = s.cpsr

theorem Effect.Moves.refl (E : Effect) (s : State) : E.Moves s s := ⟨.refl E s, rfl⟩

theorem Effect.Moves.trans {E : Effect} {s t u : State} (h : E.Moves s t) (h' : E.Moves t u) : E.Moves s u :=
  ⟨h.toAllows.trans h'.toAllows, h'.cpsr.trans h.cpsr⟩

theorem OnlyLatch.moves {E : Effect} {s t : State} (h : OnlyLatch s t) (hE : E.latch = true) : E.Moves s t := by
  obtain ⟨l, rfl⟩ := h
  exact {
    Effect.Moves.refl E s with
    untouched := rfl
    latch := fun hfalse => nomatch hE.symm.trans hfalse }

theorem OnlyStores.moves {E : Effect} {ks : List Nat} {s t : State} (h : OnlyStores ks s t)
    (hE : ∀ k ∈ ks, k ∈ E.cells) : E.Moves s t := by
  obtain ⟨m, rfl, hread, hwf⟩ := h
  exact {
    Effect.Moves.refl E s with
    untouched := rfl
    mem := fun k hk => hread k fun h => hk (hE k h)
    canonical := hwf }

/-- Writing a granted register word. -/
theorem Effect.moves_write {E : Effect} {c : RegCell} (v : Word) (s : State) (hc : c ≠ .pc) (hE : E.regs c) :
    E.Moves s { s with regs := s.regs.write c v } := {
  Effect.Moves.refl E s with
  untouched := rfl
  regs := fun _ _ hd => RegBank.read_write_of_ne _ v fun h => hd (h ▸ hE)
  place := .inl ⟨rfl, RegBank.pc_write _ v hc, rfl⟩ }

theorem alignPc_idem (t : Bool) (v : Word) : alignPc t (alignPc t v) = alignPc t v := by
  cases t <;> simp only [alignPc, if_true, Bool.false_eq_true, if_false, BitVec.and_assoc, BitVec.and_self]

theorem writePc_jumps (v : Word) (s : State) : Jumps (writePc v s) := ⟨rfl, alignPc_idem _ v⟩

/-- A jump is granted to every instruction. -/
theorem Effect.moves_writePc (E : Effect) (v : Word) (s : State) : E.Moves s (writePc v s) := {
  Effect.Moves.refl E s with
  untouched := rfl
  regs := fun _ hc _ => RegBank.read_write_of_ne _ _ hc
  place := .inr (writePc_jumps v s) }

theorem Effect.moves_drawn (E : Effect) (s : State) : E.Moves s (drawn s) := {
  Effect.Moves.refl E s with
  untouched := rfl }

theorem writeRegAs_moves {E : Effect} {m : ModeBits} {i : Reg} (v : Word) (s : State) (hE : E.WritesReg m i) :
    Yields (writeRegAs m i v s) (E.Moves s) := by
  refine ⟨fun t ht => ?_⟩
  rcases writeRegAs_eq_ok.mp ht with ⟨-, rfl⟩ | ⟨hi, c, hc, rfl⟩
  · exact E.moves_writePc v s
  · exact E.moves_write v s (resolve_ne_pc hc hi) (hE c hc)

theorem writeReg_moves {E : Effect} {i : Reg} (v : Word) {s s' : State} (hcpsr : s'.cpsr = s.cpsr)
    (hE : E.WritesReg s.cpsr.mode i) : Yields (writeReg i v s') (E.Moves s') :=
  writeRegAs_moves v s' (hcpsr ▸ hE)

/-- After some moves, a register is written and the sequence goes on. -/
theorem Effect.Moves.writeReg {E : Effect} {i : Reg} (v : Word) {s t : State} (h : E.Moves s t)
    (hE : E.WritesReg s.cpsr.mode i) : Yields (writeReg i v t) (E.Moves s) :=
  (writeRegAs_moves v t (h.cpsr ▸ hE)).imp fun _ => h.trans

theorem Effect.Moves.writeBack {E : Effect} {wb : Bool} {i : Reg} (v : Word) {s t : State} (h : E.Moves s t)
    (hE : wb = true → E.WritesReg s.cpsr.mode i) : Yields (writeBack wb i v t) (E.Moves s) := by
  cases wb with
  | false => exact .ok h
  | true => exact h.writeReg v (hE rfl)

theorem Effect.Moves.writePc {E : Effect} (v : Word) {s t : State} (h : E.Moves s t) : E.Moves s (writePc v t) :=
  h.trans (E.moves_writePc v t)

/-! ### Operations on the status words -/

/-- Writing flags that are granted. -/
theorem Effect.allows_flags {E : Effect} {p : Psr} (s : State) (he : E.status.flagsOnly = true)
    (h : E.status.Allows s.cpsr p) : E.Allows s { s with cpsr := p } := by
  obtain ⟨ht, hcontrol⟩ := StatusEffect.control_of_flagsOnly he h
  exact {
    Effect.Allows.refl E s with
    untouched := rfl
    status := h
    place := .inl ⟨rfl, rfl, ht⟩
    user := fun _ _ => ⟨hcontrol, rfl⟩ }

/-- A whole status word, with T as it was, written outside User mode or with the control bits as they were. -/
theorem Effect.allows_wholeStatus {E : Effect} {p : Psr} (s : State) (hE : E.status = .whole) (ht : p.t = s.cpsr.t)
    (huser : s.cpsr.mode = userMode → ControlKept s.cpsr p) : E.Allows s { s with cpsr := p } := {
  Effect.Allows.refl E s with
  untouched := rfl
  status := hE ▸ trivial
  place := .inl ⟨rfl, rfl, ht⟩
  user := fun _ hs => ⟨huser hs, rfl⟩ }

/-- A status word written together with a jump: T may change. -/
theorem Effect.allows_statusJump {E : Effect} {p : Psr} (v : Word) (s : State) (h : E.status.Allows s.cpsr p)
    (huser : s.cpsr.mode = userMode → ControlKept s.cpsr p) : E.Allows s (writePc v { s with cpsr := p }) := {
  Effect.Allows.refl E s with
  untouched := rfl
  regs := fun _ hc _ => RegBank.read_write_of_ne _ _ hc
  status := h
  place := .inr (writePc_jumps v _)
  user := fun _ hs => ⟨huser hs, rfl⟩ }

theorem setSpsr_userMode (p : Psr) {s : State} (h : s.cpsr.mode = userMode) :
    setSpsr p s = { s with spsr := { s.spsr with dummy := p } } := by
  rw [setSpsr, h]
  rfl

theorem setSpsr_untouched (p : Psr) (s : State) : Untouched s (setSpsr p s) := by
  unfold setSpsr
  split <;> rfl

theorem Effect.allows_setSpsr {E : Effect} (p : Psr) (s : State) (hE : E.saves = true) : E.Allows s (setSpsr p s) where
  untouched := setSpsr_untouched p s
  regs c _ _ := by rw [setSpsr_regs]
  mem k _ := by rw [setSpsr_mem]
  canonical hs := by rwa [MemCanonical, setSpsr_mem]
  status := by
    rw [setSpsr_cpsr]
    exact E.status.allows_refl s.cpsr
  spsr hfalse := nomatch hE.symm.trans hfalse
  latch _ := setSpsr_openBusLatch p s
  place := .inl ⟨setSpsr_flushRequested p s, by rw [setSpsr_regs], by rw [setSpsr_cpsr]⟩
  user _ hs := by
    rw [setSpsr_userMode p hs]
    exact ⟨⟨rfl, rfl, rfl⟩, rfl⟩

/-- What entering an exception may change (`60_exceptions.md` R903). -/
def entryEffect : Effect where
  regs _ := True
  cells := []
  status := .whole
  saves := true
  latch := false
  enters := true

theorem enterException_allowed (e : Exception) (s : State) : entryEffect.Allows s (enterException e s) where
  untouched := by cases e <;> rfl
  regs _ _ hd := absurd trivial hd
  mem k _ := by cases e <;> rfl
  canonical hs := by cases e <;> exact hs
  status := trivial
  spsr hfalse := nomatch hfalse
  latch _ := by cases e <;> rfl
  place := .inr (writePc_jumps _ _)
  user hfalse := nomatch hfalse

end Sys2Proof.Machine
end

section
/-!
PROOFS. The handlers keep to their grant: each register they write, byte they store to and status bit they set is one the
instruction names.
-/

namespace Sys2Proof.Machine

/-! ### Operands -/

theorem readReg_yields (i : Reg) (s : State) : Yields (readReg i s) fun v => v = regAt s i := by
  refine ⟨fun v hv => ?_⟩
  obtain ⟨c, hc, rfl⟩ := readReg_eq_ok.mp hv
  rw [regAt, show resolve s.cpsr.mode i.toNat = .ok c from hc]

theorem sdtOffset_yields (o : SdtOffset) (s : State) : Yields (sdtOffset o s) fun x => x = sdtOffsetAt s o := by
  cases o with
  | imm off => exact .ok rfl
  | reg amount k rm => exact (readReg_yields rm s).bind fun v hv => .ok (hv ▸ rfl)

theorem halfOffset_yields (o : HalfOffset) (s : State) : Yields (halfOffset o s) fun x => x = halfOffsetAt s o := by
  cases o with
  | imm hi lo => exact .ok rfl
  | reg rm => exact readReg_yields rm s

/-- A test, whatever it decides. -/
theorem Yields.any {α : Type} (x : Except Fault α) : Yields x fun _ => True := ⟨fun _ _ => trivial⟩

/-! ### Data processing and the exception return -/

theorem hasSpsr_userMode : hasSpsr userMode = false := rfl

/-- The exception return grants the whole status word; User mode has none to return to (`42_arm_data_processing.md` R452). -/
theorem restoreCpsr_jump_allowed {E : Effect} (v : Word) (s : State) (hE : E.status = .whole) :
    Yields (restoreCpsr s >>= fun t => .ok (writePc v t)) (E.Allows s) := by
  have hrestore : Yields (restoreCpsr s) fun t => hasSpsr s.cpsr.mode = true ∧ t = { s with cpsr := getSpsr s } :=
    ⟨fun _ => restoreCpsr_eq_ok.mp⟩
  refine hrestore.bind fun t ⟨hspsr, ht⟩ => .ok ?_
  subst ht
  refine E.allows_statusJump v s (hE ▸ trivial) fun huser => ?_
  rw [huser, hasSpsr_userMode] at hspsr
  cases hspsr

theorem dpFlags_allowed (op : DpOp) (x : Sum) (p : Psr) :
    (if dpLogical op then StatusEffect.nzc else .nzcv).Allows p (dpFlags op x p) := by
  unfold dpFlags
  cases dpLogical op <;> rfl

theorem flagsOnly_dpFlags (op : DpOp) : (if dpLogical op then StatusEffect.nzc else .nzcv).flagsOnly = true := by
  cases dpLogical op <;> rfl

theorem dpFlags_status_allowed {E : Effect} {op : DpOp} (x : Sum) (s : State)
    (hE : E.status = if dpLogical op then .nzc else .nzcv) : E.Allows s { s with cpsr := dpFlags op x s.cpsr } :=
  E.allows_flags s (hE ▸ flagsOnly_dpFlags op) (hE ▸ dpFlags_allowed op x s.cpsr)

theorem dpFinish_allowed {E : Effect} {op : DpOp} {sf : Bool} {rd : Reg} (x : Sum) (s : State)
    (hstatus : E.status = dpStatus op sf rd) (hrd : dpComparison op = false → E.WritesReg s.cpsr.mode rd) :
    Yields (dpFinish op sf rd x s) (E.Allows s) := by
  cases hcmp : dpComparison op with
  | true =>
    rw [dpFinish_of_comparison hcmp]
    exact .ok (dpFlags_status_allowed x s (by rw [hstatus, dpStatus, if_pos hcmp]))
  | false =>
    by_cases h15 : rd = 15
    · subst h15
      rw [dpFinish_15 hcmp]
      cases sf with
      | false => exact .ok (E.moves_writePc _ s).toAllows
      | true => exact restoreCpsr_jump_allowed _ s (by simp [hstatus, dpStatus, hcmp])
    · simp only [dpFinish, hcmp, h15, Bool.false_eq_true, if_false]
      refine ((Effect.Moves.refl E s).writeReg x.result (hrd hcmp)).bind fun t ht => .ok ?_
      cases sf with
      | false => exact ht.toAllows
      | true => exact ht.toAllows.trans (dpFlags_status_allowed x t
          (by simp only [hstatus, dpStatus, hcmp, h15, Bool.not_true, Bool.false_eq_true, if_false]))

theorem dataProcessing_allowed {E : Effect} {op : DpOp} {sf : Bool} {rn rd : Reg} {o : Operand2} {s : State}
    (hstatus : E.status = dpStatus op sf rd) (hrd : dpComparison op = false → E.WritesReg s.cpsr.mode rd) :
    Yields (dataProcessing op sf rn rd o s) (E.Allows s) := by
  refine (Yields.any _).bind fun _ _ => (Yields.any _).bind fun sh _ => ?_
  split
  · exact dpFinish_allowed _ s hstatus hrd
  · exact (Yields.any _).bind fun a _ => dpFinish_allowed _ s hstatus hrd

/-! ### Single transfers -/

theorem byteOrWordRead_moves {E : Effect} (byte : Bool) (a : Word) (s : State) (hE : E.latch = true) :
    E.Moves s (if byte then read8 a s else read32 a s).2 := by
  cases byte with
  | false => exact (read32_onlyLatch a s).moves hE
  | true => exact (read8_onlyLatch a s).moves hE

theorem byteOrWordWrite_moves {E : Effect} (byte : Bool) (a v : Word) (s : State)
    (hE : ∀ k ∈ (if byte then Width.byte else .word).cells s a, k ∈ E.cells) :
    E.Moves s (if byte then write8 a v s else write32 a v s) := by
  cases byte with
  | false => exact (write32_onlyStores a v s).moves hE
  | true => exact (write8_onlyStores a v s).moves hE

theorem finishLoad_moves {E : Effect} {rd : Reg} (addr v : Word) {s t : State} (h : E.Moves s t)
    (hrd : E.WritesReg s.cpsr.mode rd) : Yields (finishLoad rd addr v t) (E.Moves s) := by
  unfold finishLoad
  split
  · exact (Yields.any _).bind fun _ _ => .ok (h.writePc v)
  · exact h.writeReg v hrd

theorem singleLoad_allowed {E : Effect} {byte p u w : Bool} {rn rd : Reg} {off : SdtOffset} {s : State}
    (hlatch : E.latch = true) (hrd : E.WritesReg s.cpsr.mode rd)
    (hrn : writesBack p w = true → E.WritesReg s.cpsr.mode rn) :
    Yields (singleLoad byte p u w rn rd off s) (E.Moves s) := by
  refine (Yields.any _).bind fun _ _ => (Yields.any _).bind fun x _ => (Yields.any _).bind fun base _ => ?_
  exact ((byteOrWordRead_moves byte _ s hlatch).writeBack _ hrn).bind fun t ht => finishLoad_moves _ _ ht hrd

theorem singleStore_allowed {E : Effect} {byte p u w : Bool} {rn rd : Reg} {off : SdtOffset} {s : State}
    (hcells : ∀ k ∈ (if byte then Width.byte else .word).cells s (transferAddress p u (regAt s rn) (sdtOffsetAt s off)),
      k ∈ E.cells)
    (hrn : writesBack p w = true → E.WritesReg s.cpsr.mode rn) :
    Yields (singleStore byte p u w rn rd off s) (E.Moves s) := by
  refine (Yields.any _).bind fun _ _ => (sdtOffset_yields off s).bind fun x hx =>
    (readReg_yields rn s).bind fun base hbase => ?_
  subst hx hbase
  have hstore (v : Word) := (byteOrWordWrite_moves byte _ v s hcells).writeBack (wb := writesBack p w)
    (applyOffset u (regAt s rn) (sdtOffsetAt s off)) hrn
  dsimp only
  split
  · exact hstore _
  · exact (Yields.any _).bind fun v _ => hstore v

/-! ### Halfword transfers and the swap -/

theorem halfwordLoad_allowed {E : Effect} {k : HalfLoad} {p u w : Bool} {rn rd : Reg} {off : HalfOffset} {s : State}
    (hlatch : E.latch = true) (hrd : E.WritesReg s.cpsr.mode rd)
    (hrn : writesBack p w = true → E.WritesReg s.cpsr.mode rn) :
    Yields (halfwordLoad k p u w rn rd off s) (E.Moves s) := by
  refine (Yields.any _).bind fun _ _ => (Yields.any _).bind fun x _ => (Yields.any _).bind fun base _ => ?_
  exact (((halfLoad_onlyLatch k _ s).moves hlatch).writeBack _ hrn).bind fun t ht => ht.writeReg _ hrd

theorem halfwordStore_allowed {E : Effect} {p u w : Bool} {rn rd : Reg} {off : HalfOffset} {s : State}
    (hcells : ∀ k ∈ Width.half.cells s (transferAddress p u (regAt s rn) (halfOffsetAt s off)), k ∈ E.cells)
    (hrn : writesBack p w = true → E.WritesReg s.cpsr.mode rn) :
    Yields (halfwordStore p u w rn rd off s) (E.Moves s) := by
  refine (Yields.any _).bind fun _ _ => (halfOffset_yields off s).bind fun x hx =>
    (readReg_yields rn s).bind fun base hbase => (Yields.any _).bind fun v _ => ?_
  subst hx hbase
  exact ((write16_onlyStores _ v s).moves hcells).writeBack _ hrn

/-- Where a store goes does not depend on the latch. -/
theorem cells_after_latch {s t : State} (h : OnlyLatch s t) (w : Width) (a : Word) : w.cells t a = w.cells s a := by
  obtain ⟨l, rfl⟩ := h
  rfl

theorem swap_allowed {E : Effect} {byte : Bool} {rn rd rm : Reg} {s : State} (hlatch : E.latch = true)
    (hrd : E.WritesReg s.cpsr.mode rd)
    (hcells : ∀ k ∈ (if byte then Width.byte else .word).cells s (regAt s rn), k ∈ E.cells) :
    Yields (swap byte rn rd rm s) (E.Moves s) := by
  refine (Yields.any _).bind fun _ _ => (Yields.any _).bind fun _ _ => (readReg_yields rn s).bind fun addr haddr =>
    (Yields.any _).bind fun v _ => ?_
  subst haddr
  have hread := byteOrWordRead_moves byte (regAt s rn) s hlatch
  have hlatched : OnlyLatch s (if byte then read8 (regAt s rn) s else read32 (regAt s rn) s).2 := by
    cases byte
    · exact read32_onlyLatch _ s
    · exact read8_onlyLatch _ s
  rw [← cells_after_latch hlatched] at hcells
  exact (hread.trans (byteOrWordWrite_moves byte _ v _ hcells)).writeReg _ hrd

/-! ### Branches -/

theorem branchExchange_allowed {E : Effect} (v : Word) (s : State) (hE : E.status = .t) :
    Yields (branchExchange v s) (E.Allows s) := by
  refine ⟨fun t ht => ?_⟩
  rcases branchExchange_eq_ok.mp ht with ⟨-, rfl⟩ | ⟨-, -, rfl⟩ <;>
    exact E.allows_statusJump v s (hE ▸ rfl) fun _ => ⟨rfl, rfl, rfl⟩

theorem branch_allowed {E : Effect} {link : Bool} {imm24 : BitVec 24} {s : State}
    (hlink : link = true → E.WritesReg s.cpsr.mode 14) : Yields (branch link imm24 s) (E.Moves s) := by
  cases link with
  | false => exact .ok (E.moves_writePc _ s)
  | true => exact ((Effect.Moves.refl E s).writeReg _ (hlink rfl)).bind fun t ht => .ok (ht.writePc _)

/-! ### Multiplies -/

theorem mulFlags_allowed {E : Effect} (r : Word) (s : State) (hE : E.status = .nzc) : E.Allows s (mulFlags r s) :=
  (E.allows_flags s (hE ▸ rfl) (hE ▸ rfl)).trans (E.moves_drawn _).toAllows

theorem mullFlags_allowed {E : Effect} (p : BitVec 64) (s : State) (hE : E.status = .nzcv) :
    E.Allows s (mullFlags p s) := by
  rw [mullFlags_eq]
  exact (E.allows_flags s (hE ▸ rfl) (hE ▸ rfl)).trans ((E.moves_drawn _).trans (E.moves_drawn _)).toAllows

theorem multiply_allowed {E : Effect} {acc : Option Reg} {sf : Bool} {rd rs rm : Reg} {s : State}
    (hstatus : E.status = if sf then .nzc else .none) (hrd : E.WritesReg s.cpsr.mode rd) :
    Yields (multiply acc sf rd rs rm s) (E.Allows s) := by
  have hend (r : Word) : Yields (writeReg rd r s >>= fun t => .ok (if sf then mulFlags r t else t)) (E.Allows s) := by
    refine ((Effect.Moves.refl E s).writeReg r hrd).bind fun t ht => .ok ?_
    cases sf with
    | false => exact ht.toAllows
    | true => exact ht.toAllows.trans (mulFlags_allowed r t hstatus)
  refine (Yields.any _).bind fun _ _ => (Yields.any _).bind fun _ _ => (Yields.any _).bind fun a _ =>
    (Yields.any _).bind fun b _ => ?_
  cases acc with
  | none => exact hend _
  | some rn => exact (Yields.any _).bind fun n _ => hend _

theorem multiplyLong_allowed {E : Effect} {signed acc sf : Bool} {hi lo rs rm : Reg} {s : State}
    (hstatus : E.status = if sf then .nzcv else .none) (hhi : E.WritesReg s.cpsr.mode hi)
    (hlo : E.WritesReg s.cpsr.mode lo) : Yields (multiplyLong signed acc sf hi lo rs rm s) (E.Allows s) := by
  have hend (p : BitVec 64) : Yields (writeReg lo (p.extractLsb' 0 32) s >>= fun t =>
      writeReg hi (p.extractLsb' 32 32) t >>= fun u => .ok (if sf then mullFlags p u else u)) (E.Allows s) := by
    refine ((Effect.Moves.refl E s).writeReg _ hlo).bind fun t ht => (ht.writeReg _ hhi).bind fun u hu => .ok ?_
    cases sf with
    | false => exact hu.toAllows
    | true => exact hu.toAllows.trans (mullFlags_allowed p u hstatus)
  refine (Yields.any _).bind fun _ _ => (Yields.any _).bind fun _ _ => (Yields.any _).bind fun a _ =>
    (Yields.any _).bind fun b _ => ?_
  cases acc with
  | false => exact hend _
  | true => exact (Yields.any _).bind fun oldHi _ => (Yields.any _).bind fun oldLo _ => hend _

/-! ### Status-register transfer -/

/-- The control bits of a status word are among its bits 7 to 0 (`10_state.md` R52). -/
theorem controlKept_of_bits {p q : Psr} (h : ∀ j < 8, q.toWord.getLsbD j = p.toWord.getLsbD j) : ControlKept p q := by
  have hmode (x : Psr) : x.mode = x.toWord.extractLsb' 0 5 := congrArg Psr.mode (Psr.ofWord_toWord x).symm
  have hi (x : Psr) : x.i = x.toWord.getLsbD 7 := congrArg Psr.i (Psr.ofWord_toWord x).symm
  have hf (x : Psr) : x.f = x.toWord.getLsbD 6 := congrArg Psr.f (Psr.ofWord_toWord x).symm
  refine ⟨?mode, by rw [hi, hi, h 7 (by decide)], by rw [hf, hf, h 6 (by decide)]⟩
  case mode =>
    rw [hmode, hmode]
    refine BitVec.eq_of_getLsbD_eq fun j hj => ?_
    rw [BitVec.getLsbD_extractLsb', BitVec.getLsbD_extractLsb', h (0 + j) (by omega)]

/-- From User mode a CPSR write leaves the control bits (`45_arm_psr_transfer.md` R604). -/
theorem maskedPsr_userMode_control {s : State} (mask : BitVec 4) (v : Word) (h : s.cpsr.mode = userMode) :
    ControlKept s.cpsr (maskedPsr s.cpsr v (cpsrMask mask s)) := by
  refine controlKept_of_bits fun j hj => ?_
  have hunwritten : (cpsrMask mask s).getLsbD j = false := by
    rw [getLsbD_cpsrMask mask s (by omega), h, decide_eq_false (by omega)]
    exact Bool.and_false _
  rw [getLsbD_maskedPsr _ _ _ (by omega), hunwritten, if_neg Bool.false_ne_true]

theorem moveToPsr_cpsr_allowed {E : Effect} (mask : BitVec 4) (v : Word) (s : State) (hE : E.status = .whole) :
    Yields (moveToPsr false mask v s) (E.Allows s) := by
  rw [moveToPsr_cpsr_eq]
  split
  case isTrue ht => exact .ok (E.allows_wholeStatus s hE ht (maskedPsr_userMode_control mask v))
  case isFalse => exact .error _ _

theorem moveToPsr_allowed {E : Effect} {r : Bool} (mask : BitVec 4) (v : Word) (s : State)
    (hstatus : E.status = if r then .none else .whole) (hsaves : E.saves = r) :
    Yields (moveToPsr r mask v s) (E.Allows s) := by
  cases r with
  | false => exact moveToPsr_cpsr_allowed mask v s hstatus
  | true => exact .ok (E.allows_setSpsr _ s hsaves)

theorem moveFromPsr_allowed {E : Effect} {r : Bool} {rd : Reg} {s : State} (hrd : E.WritesReg s.cpsr.mode rd) :
    Yields (moveFromPsr r rd s) (E.Moves s) :=
  (Yields.any _).bind fun _ _ => (Effect.Moves.refl E s).writeReg _ hrd

end Sys2Proof.Machine
end

section
/-!
PROOFS. The block transfers of both encodings and the other Thumb handlers keep to their grant, and so does every instruction.
-/

namespace Sys2Proof.Machine

/-! ### Aligned addresses -/

theorem and_not_low_toNat (a : Word) (n : Nat) (m : Word) (hm : ∀ j < 32, m.getLsbD j = decide (n ≤ j)) :
    (a &&& m).toNat = a.toNat / 2 ^ n * 2 ^ n := by
  have hshift : a &&& m = (a >>> n) <<< n := by
    refine BitVec.eq_of_getLsbD_eq fun j hj => ?_
    rw [BitVec.getLsbD_and, hm j hj, BitVec.getLsbD_shiftLeft, BitVec.getLsbD_ushiftRight, decide_eq_true hj]
    by_cases hle : n ≤ j
    · simp [hle, Nat.not_lt.mpr hle]
    · simp [hle, Nat.lt_of_not_le hle]
  have hle : a.toNat / 2 ^ n * 2 ^ n ≤ a.toNat := Nat.div_mul_le_self _ _
  rw [hshift, BitVec.toNat_shiftLeft, BitVec.toNat_ushiftRight, Nat.shiftRight_eq_div_pow, Nat.shiftLeft_eq,
    Nat.mod_eq_of_lt (Nat.lt_of_le_of_lt hle a.isLt)]

theorem alignWord_toNat (a : Word) : (alignWord a).toNat = a.toNat / 4 * 4 :=
  and_not_low_toNat a 2 _ (by decide)

theorem alignHalf_toNat (a : Word) : (alignHalf a).toNat = a.toNat / 2 * 2 :=
  and_not_low_toNat a 1 _ (by decide)

theorem alignWord_alignWord (a : Word) : alignWord (alignWord a) = alignWord a := alignPc_idem false a

theorem alignWord_add_four (a : Word) : alignWord (a + 4) = alignWord a + 4 := by
  refine BitVec.eq_of_toNat_eq ?_
  have hfour : (4 : Word).toNat = 4 := rfl
  rw [alignWord_toNat, BitVec.toNat_add, BitVec.toNat_add, alignWord_toNat, hfour]
  omega

/-! ### Blocks of words -/

theorem mem_storedCells {s : State} {a : Word} {n k : Nat} :
    k ∈ storedCells s a n ↔ ∃ j < n, writeCell s (a + BitVec.ofNat 32 j) = some k := by
  simp [storedCells]

/-- The bytes of a block are those of its first word and those of the words after it. -/
theorem mem_blockCells_succ {s : State} {a : Word} {n k : Nat}
    (h : k ∈ storedCells s (alignWord a) 4 ∨ k ∈ blockCells s (a + 4) n) : k ∈ blockCells s a (n + 1) := by
  refine mem_storedCells.mpr ?_
  rcases h with hfirst | hrest
  · obtain ⟨j, hj, hk⟩ := mem_storedCells.mp hfirst
    exact ⟨j, by omega, hk⟩
  · obtain ⟨j, hj, hk⟩ := mem_storedCells.mp hrest
    refine ⟨4 + j, by omega, ?_⟩
    have haddress : alignWord (a + 4) + BitVec.ofNat 32 j = alignWord a + BitVec.ofNat 32 (4 + j) := by
      rw [alignWord_add_four, BitVec.ofNat_add, BitVec.add_assoc]
      rfl
    exact haddress ▸ hk

/-- The store loop reaches the bytes of its block alone (`48_arm_block_coproc_swi.md` R752). -/
theorem storeRegs_onlyStores (userBank : Bool) (is : List Reg) (a : Word) (s : State) :
    Yields (storeRegs userBank is a s) (OnlyStores (blockCells s a is.length) s) := by
  induction is generalizing a s with
  | nil => exact .ok (OnlyStores.refl s)
  | cons i is ih =>
    refine (Yields.any _).bind fun v _ => (ih (a + 4) _).imp fun t ht => ?_
    have hword : OnlyStores (storedCells s (alignWord a) 4) s (memWriteAligned a v s) := by
      rw [← alignWord_alignWord]
      exact write32_onlyStores (alignWord a) v s
    refine (hword.trans ht).mono fun k hk => mem_blockCells_succ ?_
    rwa [List.mem_append, blockCells, storedCells_congr hword.romSize] at hk

theorem blockBank_congr {userBank : Bool} {s t : State} (h : t.cpsr = s.cpsr) :
    blockBank userBank t = blockBank userBank s := by
  rw [blockBank, blockBank, h]

theorem loadRegs_moves {E : Effect} {userBank : Bool} {is : List Reg} (a : Word) (s : State) (hlatch : E.latch = true)
    (his : ∀ i ∈ is, E.WritesReg (blockBank userBank s) i) :
    Yields (loadRegs userBank is a s) fun r => E.Moves s r.2 := by
  induction is generalizing a s with
  | nil => exact .ok (.refl E s)
  | cons i is ih =>
    have hread : E.Moves s (memReadAligned a s).2 := (read32_onlyLatch _ s).moves hlatch
    have hwrite := writeRegAs_moves (memReadAligned a s).1 (memReadAligned a s).2
      (blockBank_congr hread.cpsr ▸ his i (.head _))
    refine hwrite.bind fun t ht => ?_
    have hmoved := hread.trans ht
    exact (ih (a + 4) t fun j hj => blockBank_congr hmoved.cpsr ▸ his j (.tail _ hj)).imp fun r hr => hmoved.trans hr

/-! ### ARM block transfers -/

theorem blockCheck_yields (userBank w : Bool) (rn : Reg) (list : BitVec 16) (s : State) :
    Yields (blockCheck userBank w rn list s) fun _ => (userBank && w) = false :=
  (Yields.any _).bind fun _ _ => (Yields.any _).bind fun _ _ => (failIf_yields _ _ s).bind fun _ h =>
    (Yields.any _).imp fun _ _ => h

theorem mem_regList_of_low {list : BitVec 16} {i : Reg} (h : i ∈ regList (list &&& 0x7FFF#16)) : i ∈ regList list := by
  rw [regList, List.mem_filter] at h ⊢
  refine ⟨h.1, ?_⟩
  rw [BitVec.getLsbD_and, Bool.and_eq_true] at h
  exact h.2.1

theorem blockLoad_allowed {E : Effect} {m : BlockMode} {sb w : Bool} {rn : Reg} {list : BitVec 16} {s : State}
    (hlatch : E.latch = true) (hstatus : E.status = if sb && list.getLsbD 15 then .whole else .none)
    (hlist : ∀ i ∈ regList list, E.WritesReg (blockBank (sb && !list.getLsbD 15) s) i)
    (hrn : (sb && !list.getLsbD 15) = false → w = true → E.WritesReg s.cpsr.mode rn) :
    Yields (blockLoad m sb w rn list s) (E.Allows s) := by
  have hbank : (sb && !(sb && list.getLsbD 15)) = (sb && !list.getLsbD 15) := by cases sb <;> rfl
  rw [blockLoad, hbank]
  refine (blockCheck_yields _ w rn list s).bind fun _ hcheck => (Yields.any _).bind fun _ _ =>
    (Yields.any _).bind fun base _ =>
    (loadRegs_moves _ s hlatch fun i hi => hlist i (mem_regList_of_low hi)).bind fun r hr => ?_
  have hback : w = true → E.WritesReg s.cpsr.mode rn := fun hw => hrn (by simpa [hw] using hcheck) hw
  split
  · have hread : E.Moves s (memReadAligned r.1 r.2).2 := hr.trans ((read32_onlyLatch _ r.2).moves hlatch)
    refine (hread.writeBack _ hback).bind fun t ht => ?_
    dsimp only
    split
    case isTrue hrestore =>
      exact (restoreCpsr_jump_allowed _ t (by rw [hstatus, if_pos hrestore])).imp fun u hu => ht.toAllows.trans hu
    case isFalse => exact .ok (ht.writePc _).toAllows
  · exact (hr.writeBack _ hback).imp fun _ => Effect.Moves.toAllows

theorem blockStore_allowed {E : Effect} {m : BlockMode} {sb w : Bool} {rn : Reg} {list : BitVec 16} {s : State}
    (hcells : ∀ k ∈ blockCells s (firstAddress m (regAt s rn) (regList list).length) (regList list).length, k ∈ E.cells)
    (hrn : w = true → E.WritesReg s.cpsr.mode rn) : Yields (blockStore m sb w rn list s) (E.Moves s) := by
  refine (Yields.any _).bind fun _ _ => (Yields.any _).bind fun _ _ => (readReg_yields rn s).bind fun base hbase => ?_
  subst hbase
  have haddress : blockStart m (regAt s rn) (blockBytes (regList list)) =
      firstAddress m (regAt s rn) (regList list).length := by cases m <;> rfl
  dsimp only
  rw [haddress]
  exact (storeRegs_onlyStores sb _ _ s).bind fun t ht => (ht.moves hcells).writeBack _ hrn

/-! ### Thumb arithmetic -/

/-- The status effect of the flags a Thumb result writes. -/
def FlagWrite.effect : FlagWrite → StatusEffect
  | .none => .none
  | .nz => .nz
  | .nzc => .nzc
  | .nzcv => .nzcv

theorem FlagWrite.apply_allowed {E : Effect} {f : FlagWrite} (x : Sum) (s : State) (hE : E.status = f.effect) :
    E.Allows s { s with cpsr := f.apply x s.cpsr } := by
  refine E.allows_flags s ?_ ?_ <;> rw [hE] <;> cases f <;> rfl

theorem lowResult_allowed {E : Effect} {f : FlagWrite} {rd : LowReg} (x : Sum) (s : State) (hE : E.status = f.effect)
    (hrd : E.WritesReg s.cpsr.mode (lowReg rd)) : Yields (lowResult f rd x s) (E.Allows s) :=
  ((Effect.Moves.refl E s).writeReg x.result hrd).bind fun t ht => .ok (ht.toAllows.trans (f.apply_allowed x t hE))

theorem lowUnary_allowed {E : Effect} {f : FlagWrite} {rs rd : LowReg} {op : Word → Sum} {s : State}
    (hE : E.status = f.effect) (hrd : E.WritesReg s.cpsr.mode (lowReg rd)) :
    Yields (lowUnary f rs rd op s) (E.Allows s) :=
  (Yields.any _).bind fun _ _ => lowResult_allowed _ s hE hrd

theorem lowBinary_allowed {E : Effect} {f : FlagWrite} {ra rb rd : LowReg} {op : Word → Word → Sum} {s : State}
    (hE : E.status = f.effect) (hrd : E.WritesReg s.cpsr.mode (lowReg rd)) :
    Yields (lowBinary f ra rb rd op s) (E.Allows s) :=
  (Yields.any _).bind fun _ _ => (Yields.any _).bind fun _ _ => lowResult_allowed _ s hE hrd

theorem lowCompare_allowed {E : Effect} {f : FlagWrite} {ra rb : LowReg} {op : Word → Word → Sum} {s : State}
    (hE : E.status = f.effect) : Yields (lowCompare f ra rb op s) (E.Allows s) :=
  (Yields.any _).bind fun _ _ => (Yields.any _).bind fun _ _ => .ok (f.apply_allowed _ s hE)

theorem lowMultiply_allowed {E : Effect} {rs rd : LowReg} {s : State} (hE : E.status = .nzc)
    (hrd : E.WritesReg s.cpsr.mode (lowReg rd)) : Yields (lowMultiply rs rd s) (E.Allows s) :=
  (Yields.any _).bind fun _ _ => (Yields.any _).bind fun _ _ => (Yields.any _).bind fun _ _ =>
    ((Effect.Moves.refl E s).writeReg _ hrd).bind fun t ht => .ok (ht.toAllows.trans (mulFlags_allowed _ t hE))

/-! ### Thumb transfers -/

theorem off5Word_eq (off5 : BitVec 5) : off5Word off5 = BitVec.ofNat 32 (4 * off5.toNat) :=
  zeroExtend_shiftLeft_eq_ofNat off5 2

theorem off5Half_eq (off5 : BitVec 5) : off5Half off5 = BitVec.ofNat 32 (2 * off5.toNat) :=
  zeroExtend_shiftLeft_eq_ofNat off5 1

theorem off5Byte_eq (off5 : BitVec 5) : off5Byte off5 = BitVec.ofNat 32 off5.toNat := (BitVec.ofNat_toNat 32 off5).symm

theorem lowLoad_allowed {E : Effect} {w : Width} {rd : LowReg} {s : State} (a : Word) (hlatch : E.latch = true)
    (hrd : E.WritesReg s.cpsr.mode (lowReg rd)) : Yields (lowLoad w rd a s) (E.Moves s) :=
  ((memRead_onlyLatch w a s).moves hlatch).writeReg _ hrd

theorem lowLoadHalf_allowed {E : Effect} {k : HalfLoad} {rd : LowReg} {s : State} (a : Word) (hlatch : E.latch = true)
    (hrd : E.WritesReg s.cpsr.mode (lowReg rd)) : Yields (lowLoadHalf k rd a s) (E.Moves s) :=
  ((halfLoad_onlyLatch k a s).moves hlatch).writeReg _ hrd

theorem lowStore_allowed {E : Effect} {w : Width} {rd : LowReg} {s : State} {a : Word}
    (hcells : ∀ k ∈ w.cells s a, k ∈ E.cells) : Yields (lowStore w rd a s) (E.Moves s) :=
  (Yields.any _).bind fun v _ => .ok ((memWrite_onlyStores w a v s).moves hcells)

theorem storeIndexed_allowed {E : Effect} {w : Width} {ro rb rd : LowReg} {s : State}
    (hcells : ∀ k ∈ w.cells s (regAt s (lowReg rb) + regAt s (lowReg ro)), k ∈ E.cells) :
    Yields (baseIndex rb ro s >>= fun a => lowStore w rd a s) (E.Moves s) := by
  have haddress : Yields (baseIndex rb ro s) fun a => a = regAt s (lowReg rb) + regAt s (lowReg ro) :=
    (readReg_yields _ s).bind fun _ hb => (readReg_yields _ s).bind fun _ ho => .ok (hb ▸ ho ▸ rfl)
  exact haddress.bind fun a ha => lowStore_allowed (ha ▸ hcells)

theorem storeOffset_allowed {E : Effect} {w : Width} {rb : Reg} {rd : LowReg} {x y : Word} {s : State} (hxy : x = y)
    (hcells : ∀ k ∈ w.cells s (regAt s rb + y), k ∈ E.cells) :
    Yields (baseOffset rb x s >>= fun a => lowStore w rd a s) (E.Moves s) := by
  have haddress : Yields (baseOffset rb x s) fun a => a = regAt s rb + y :=
    (readReg_yields _ s).bind fun _ hb => .ok (hb ▸ hxy ▸ rfl)
  exact haddress.bind fun a ha => lowStore_allowed (ha ▸ hcells)

theorem push_allowed {E : Effect} {r : Bool} {rlist : BitVec 8} {s : State}
    (hcells : ∀ k ∈ blockCells s (firstAddress .db (regAt s 13) (regList (stackList r 14 rlist)).length)
      (regList (stackList r 14 rlist)).length, k ∈ E.cells)
    (h13 : E.WritesReg s.cpsr.mode 13) : Yields (push r rlist s) (E.Moves s) := by
  refine (Yields.any _).bind fun _ _ => (readReg_yields 13 s).bind fun sp hsp => ?_
  subst hsp
  exact (storeRegs_onlyStores false _ _ s).bind fun t ht => (ht.moves hcells).writeReg _ h13

theorem pop_allowed {E : Effect} {r : Bool} {rlist : BitVec 8} {s : State} (hlatch : E.latch = true)
    (hlist : ∀ i ∈ regList (rlist.zeroExtend 16), E.WritesReg s.cpsr.mode i) (h13 : E.WritesReg s.cpsr.mode 13) :
    Yields (pop r rlist s) (E.Moves s) := by
  refine (Yields.any _).bind fun _ _ => (Yields.any _).bind fun sp _ => (loadRegs_moves sp s hlatch hlist).bind
    fun l hl => ?_
  split
  · have hread : E.Moves s (memReadAligned l.1 l.2).2 := hl.trans ((read32_onlyLatch _ l.2).moves hlatch)
    exact (hread.writeReg _ h13).bind fun t ht => .ok (ht.writePc _)
  · exact hl.writeReg _ h13

theorem lowStoreMultiple_allowed {E : Effect} {rb : LowReg} {rlist : BitVec 8} {s : State}
    (hcells : ∀ k ∈ blockCells s (regAt s (lowReg rb)) (regList (rlist.zeroExtend 16)).length, k ∈ E.cells)
    (hrb : E.WritesReg s.cpsr.mode (lowReg rb)) : Yields (lowStoreMultiple rb rlist s) (E.Moves s) := by
  refine (Yields.any _).bind fun _ _ => (Yields.any _).bind fun _ _ => (readReg_yields _ s).bind fun base hbase => ?_
  subst hbase
  exact (storeRegs_onlyStores false _ _ s).bind fun t ht => (ht.moves hcells).writeReg _ hrb

theorem lowLoadMultiple_allowed {E : Effect} {rb : LowReg} {rlist : BitVec 8} {s : State} (hlatch : E.latch = true)
    (hlist : ∀ i ∈ regList (rlist.zeroExtend 16), E.WritesReg s.cpsr.mode i)
    (hrb : E.WritesReg s.cpsr.mode (lowReg rb)) : Yields (lowLoadMultiple rb rlist s) (E.Moves s) :=
  (Yields.any _).bind fun _ _ => (Yields.any _).bind fun base _ => (loadRegs_moves base s hlatch hlist).bind
    fun _ hl => hl.writeBack _ fun _ => hrb

/-! ### Every instruction -/

theorem raise_allowed (e : Exception) (r : FaultReason) (s : State) : Yields (raise e r s) (entryEffect.Allows s) := by
  refine ⟨fun t ht => ?_⟩
  rcases raise_eq_ok.mp ht with ⟨-, rfl⟩ | ⟨-, rfl⟩
  · exact .refl _ _
  · exact enterException_allowed e s

/-- The instructions that write a saved status word (`45_arm_psr_transfer.md` R605). -/
def savesStatus (i : Instr) : Bool :=
  match i with
  | .msrReg _ r _ _ => r
  | .msrImm _ r _ _ _ => r
  | _ => false

/-- The grant of an instruction: what the spec names as its destinations, its stores, its status effect; of one that raises an
exception, the exception's entry. -/
def instrEffect (i : Instr) (s : State) : Effect :=
  match raises i with
  | some _ => entryEffect
  | none =>
    { regs := fun c => ∃ r ∈ destRegs i, resolve (destMode i s) r.toNat = .ok c
      cells := storeCells i s
      status := statusEffect i
      saves := savesStatus i
      latch := readsMemory i
      enters := false }

theorem instrEffect_of_no_raise {i : Instr} (h : raises i = none) (s : State) :
    instrEffect i s =
      { regs := fun c => ∃ r ∈ destRegs i, resolve (destMode i s) r.toNat = .ok c
        cells := storeCells i s
        status := statusEffect i
        saves := savesStatus i
        latch := readsMemory i
        enters := false } := by
  rw [instrEffect, h]

theorem writesReg_of_mem {i : Instr} {r : Reg} {s : State} (h : raises i = none) (hr : r ∈ destRegs i) :
    (instrEffect i s).WritesReg (destMode i s) r := by
  intro c hc
  rw [instrEffect_of_no_raise h]
  exact ⟨r, hr, hc⟩

theorem mem_wbReg {wb : Bool} (rn : Reg) (h : wb = true) : rn ∈ wbReg wb rn := by
  rw [wbReg, if_pos h]
  exact .head _

theorem answer_allowed {E : Effect} {x : Except Fault State} {s t : State} (hx : Yields x (E.Allows s))
    (h : answer x = .next t) : E.Allows s t := hx.of_ok t (answer_eq_next.mp h)

theorem answer_moved {E : Effect} {x : Except Fault State} {s t : State} (hx : Yields x (E.Moves s))
    (h : answer x = .next t) : E.Allows s t := answer_allowed (hx.imp fun _ => Effect.Moves.toAllows) h

theorem whenPassed_allowed {E : Effect} {c : Cond} {x : Except Fault State} {s t : State} (hx : Yields x (E.Allows s))
    (h : whenPassed c s x = .next t) : E.Allows s t := by
  rcases whenPassed_eq_next.mp h with ⟨-, rfl⟩ | ⟨-, hok⟩
  · exact .refl E t
  · exact hx.of_ok t hok

theorem whenPassed_moved {E : Effect} {c : Cond} {x : Except Fault State} {s t : State} (hx : Yields x (E.Moves s))
    (h : whenPassed c s x = .next t) : E.Allows s t := whenPassed_allowed (hx.imp fun _ => Effect.Moves.toAllows) h

end Sys2Proof.Machine
end

section
/-!
PROOFS. Every instruction keeps to its grant: one case per group of constructors that share a handler.
-/

namespace Sys2Proof.Machine

/-- The one destination of an instruction is granted. -/
theorem writesReg_first {i : Instr} {r : Reg} {rs : List Reg} {s : State} (h : raises i = none)
    (hr : destRegs i = r :: rs) : (instrEffect i s).WritesReg (destMode i s) r :=
  writesReg_of_mem h (hr ▸ .head rs)

/-- The ARM block loads name their list and their base, and the bank of the list by S (`48_arm_block_coproc_swi.md` R758). -/
theorem blockLoad_instr_allowed {i : Instr} {m : BlockMode} {c : Cond} {sb w : Bool} {rn : Reg} {list : BitVec 16}
    {s t : State} (hraises : raises i = none) (hlatch : readsMemory i = true)
    (hstatus : statusEffect i = if sb && list.getLsbD 15 then .whole else .none)
    (hdest : destRegs i = regList list ++ wbReg w rn)
    (hmode : destMode i s = if sb && !list.getLsbD 15 then userMode else s.cpsr.mode)
    (h : whenPassed c s (blockLoad m sb w rn list s) = .next t) : (instrEffect i s).Allows s t := by
  have hmem (r : Reg) (hr : r ∈ regList list ∨ r ∈ wbReg w rn) : (instrEffect i s).WritesReg (destMode i s) r :=
    writesReg_of_mem hraises (hdest ▸ List.mem_append.mpr hr)
  have heffect := instrEffect_of_no_raise hraises s
  refine whenPassed_allowed (blockLoad_allowed (by rw [heffect]; exact hlatch) (by rw [heffect]; exact hstatus)
    (fun r hr => ?list) (fun hcurrent hw => ?base)) h
  case list =>
    have hgrant := hmem r (.inl hr)
    rwa [hmode] at hgrant
  case base =>
    have hgrant := hmem rn (.inr (mem_wbReg rn hw))
    rwa [hmode, hcurrent, if_neg Bool.false_ne_true] at hgrant

/-- An instruction changes only what its grant names. -/
theorem exec_allowed {i : Instr} {s t : State} (h : exec i s = .next t) : (instrEffect i s).Allows s t := by
  cases i with
  | bx =>
    exact whenPassed_allowed ((Yields.any _).bind fun v _ => branchExchange_allowed v s rfl) h
  | mul | mla =>
    exact whenPassed_allowed (multiply_allowed rfl (writesReg_first rfl rfl)) h
  | umull | umlal | smull | smlal =>
    exact whenPassed_allowed (multiplyLong_allowed rfl (writesReg_first rfl rfl)
      (writesReg_of_mem rfl (.tail _ (.head _)))) h
  | swp =>
    exact whenPassed_moved (swap_allowed (byte := false) rfl (writesReg_first rfl rfl) fun _ hk => hk) h
  | swpb =>
    exact whenPassed_moved (swap_allowed (byte := true) rfl (writesReg_first rfl rfl) fun _ hk => hk) h
  | strhImm | strhReg =>
    exact whenPassed_moved (halfwordStore_allowed (fun _ hk => hk) fun hw => writesReg_of_mem rfl (mem_wbReg _ hw)) h
  | ldrhImm | ldrhReg | ldrsbImm | ldrsbReg | ldrshImm | ldrshReg =>
    exact whenPassed_moved (halfwordLoad_allowed rfl (writesReg_first rfl rfl)
      fun hw => writesReg_of_mem rfl (.tail _ (mem_wbReg _ hw))) h
  | halfwordSignedStore =>
    exact whenPassed_allowed (Yields.error _ _) h
  | mrs =>
    exact whenPassed_moved (moveFromPsr_allowed (writesReg_first rfl rfl)) h
  | msrReg =>
    exact whenPassed_allowed ((Yields.any _).bind fun _ _ => (Yields.any _).bind fun v _ =>
      moveToPsr_allowed _ v s rfl rfl) h
  | msrImm =>
    exact whenPassed_allowed (moveToPsr_allowed _ _ s rfl rfl) h
  | andImm | andRegImmShift | andRegRegShift | eorImm | eorRegImmShift | eorRegRegShift | subImm | subRegImmShift |
    subRegRegShift | rsbImm | rsbRegImmShift | rsbRegRegShift | addImm | addRegImmShift | addRegRegShift | adcImm |
    adcRegImmShift | adcRegRegShift | sbcImm | sbcRegImmShift | sbcRegRegShift | rscImm | rscRegImmShift |
    rscRegRegShift | orrImm | orrRegImmShift | orrRegRegShift | movImm | movRegImmShift | movRegRegShift | bicImm |
    bicRegImmShift | bicRegRegShift | mvnImm | mvnRegImmShift | mvnRegRegShift =>
    exact whenPassed_allowed (dataProcessing_allowed rfl fun _ => writesReg_first rfl rfl) h
  | tstImm | tstRegImmShift | tstRegRegShift | teqImm | teqRegImmShift | teqRegRegShift | cmpImm |
    cmpRegImmShift | cmpRegRegShift | cmnImm | cmnRegImmShift | cmnRegRegShift =>
    refine whenPassed_allowed (dataProcessing_allowed rfl fun hcmp => ?_) h
    cases hcmp
  | undefinedRow8 | ldcStcUndefined | cdp | mcr | mrc | swi =>
    exact whenPassed_allowed (raise_allowed _ _ s) h
  | strt =>
    exact whenPassed_moved (singleStore_allowed (byte := false) (fun _ hk => hk) fun _ => writesReg_first rfl rfl) h
  | strbt =>
    exact whenPassed_moved (singleStore_allowed (byte := true) (fun _ hk => hk) fun _ => writesReg_first rfl rfl) h
  | str =>
    exact whenPassed_moved (singleStore_allowed (byte := false) (fun _ hk => hk)
      fun hw => writesReg_of_mem rfl (mem_wbReg _ hw)) h
  | strb =>
    exact whenPassed_moved (singleStore_allowed (byte := true) (fun _ hk => hk)
      fun hw => writesReg_of_mem rfl (mem_wbReg _ hw)) h
  | ldrt | ldrbt =>
    exact whenPassed_moved (singleLoad_allowed rfl (writesReg_first rfl rfl)
      fun _ => writesReg_of_mem rfl (.tail _ (.head _))) h
  | ldr | ldrb =>
    exact whenPassed_moved (singleLoad_allowed rfl (writesReg_first rfl rfl)
      fun hw => writesReg_of_mem rfl (.tail _ (mem_wbReg _ hw))) h
  | stmda | stmia | stmdb | stmib =>
    exact whenPassed_moved (blockStore_allowed (fun _ hk => hk) fun hw => writesReg_of_mem rfl (mem_wbReg _ hw)) h
  | ldmda | ldmia | ldmdb | ldmib =>
    exact blockLoad_instr_allowed rfl rfl rfl rfl rfl h
  | b =>
    exact whenPassed_moved (branch_allowed (link := false) fun hlink => nomatch hlink) h
  | bl =>
    exact whenPassed_moved (branch_allowed fun _ => writesReg_first rfl rfl) h
  | tAddReg | tSubReg | tAnd | tEor | tLslReg | tLsrReg | tAsrReg | tAdc | tSbc | tRor | tOrr | tBic =>
    exact answer_allowed (lowBinary_allowed rfl (writesReg_first rfl rfl)) h
  | tAddImm3 | tSubImm3 | tLslImm | tLsrImm | tAsrImm | tAddImm8 | tSubImm8 | tNeg | tMvn =>
    exact answer_allowed (lowUnary_allowed rfl (writesReg_first rfl rfl)) h
  | tMovImm =>
    exact answer_allowed (lowResult_allowed _ s rfl (writesReg_first rfl rfl)) h
  | tCmpImm =>
    exact answer_allowed ((Yields.any _).bind fun _ _ => .ok (FlagWrite.apply_allowed (f := .nzcv) _ s rfl)) h
  | tTst | tCmpReg | tCmn =>
    exact answer_allowed (lowCompare_allowed rfl) h
  | tMul =>
    exact answer_allowed (lowMultiply_allowed rfl (writesReg_first rfl rfl)) h
  | tAddHi =>
    exact answer_moved ((Yields.any _).bind fun _ _ => (Yields.any _).bind fun _ _ => (Yields.any _).bind fun _ _ =>
      (Effect.Moves.refl _ s).writeReg _ (writesReg_first rfl rfl)) h
  | tCmpHi =>
    exact answer_allowed ((Yields.any _).bind fun _ _ => (Yields.any _).bind fun _ _ => (Yields.any _).bind fun _ _ =>
      .ok (FlagWrite.apply_allowed (f := .nzcv) _ s rfl)) h
  | tMovHi =>
    exact answer_moved ((Yields.any _).bind fun _ _ => (Yields.any _).bind fun _ _ =>
      (Effect.Moves.refl _ s).writeReg _ (writesReg_first rfl rfl)) h
  | tBx =>
    exact answer_allowed ((Yields.any _).bind fun _ _ => (Yields.any _).bind fun v _ =>
      branchExchange_allowed v s rfl) h
  | tLdrPc =>
    exact answer_moved (lowLoad_allowed _ rfl (writesReg_first rfl rfl)) h
  | tStrReg | tStrbReg | tStrhReg =>
    exact answer_moved (storeIndexed_allowed fun _ hk => hk) h
  | tLdrReg | tLdrbReg | tLdrImm | tLdrbImm | tLdrSp =>
    exact answer_moved ((Yields.any _).bind fun _ _ => lowLoad_allowed _ rfl (writesReg_first rfl rfl)) h
  | tLdsb | tLdrhReg | tLdsh | tLdrhImm =>
    exact answer_moved ((Yields.any _).bind fun _ _ => lowLoadHalf_allowed _ rfl (writesReg_first rfl rfl)) h
  | tStrImm off5 =>
    exact answer_moved (storeOffset_allowed (off5Word_eq off5) fun _ hk => hk) h
  | tStrbImm off5 =>
    exact answer_moved (storeOffset_allowed (off5Byte_eq off5) fun _ hk => hk) h
  | tStrhImm off5 =>
    exact answer_moved (storeOffset_allowed (off5Half_eq off5) fun _ hk => hk) h
  | tStrSp rd word8 =>
    exact answer_moved (storeOffset_allowed (word8Offset_eq word8) fun _ hk => hk) h
  | tAddPc | tBlFirst =>
    exact answer_moved ((Effect.Moves.refl _ s).writeReg _ (writesReg_first rfl rfl)) h
  | tAddSpRd | tAddSpImm | tSubSpImm =>
    exact answer_moved ((Yields.any _).bind fun _ _ =>
      (Effect.Moves.refl _ s).writeReg _ (writesReg_first rfl rfl)) h
  | tPush =>
    exact answer_moved (push_allowed (fun _ hk => hk) (writesReg_first rfl rfl)) h
  | tPop =>
    exact answer_moved (pop_allowed rfl (fun _ hi => writesReg_of_mem rfl (.tail _ hi)) (writesReg_first rfl rfl)) h
  | tStmia =>
    exact answer_moved (lowStoreMultiple_allowed (fun _ hk => hk) (writesReg_first rfl rfl)) h
  | tLdmia =>
    exact answer_moved (lowLoadMultiple_allowed rfl (fun _ hi => writesReg_of_mem rfl (.tail _ hi))
      (writesReg_first rfl rfl)) h
  | tSwi | tUndefinedDe | tUndefinedE8 | tUndefinedB =>
    exact answer_allowed (raise_allowed _ _ s) h
  | tBCond c =>
    simp only [exec, execTBCond] at h
    split at h <;> cases h
    · exact (Effect.moves_writePc _ _ s).toAllows
    · exact .refl _ s
  | tB =>
    exact answer_moved (.ok (Effect.moves_writePc _ _ s)) h
  | tBlSecond =>
    exact answer_moved ((Yields.any _).bind fun _ _ => ((Effect.Moves.refl _ s).writeReg _
      (writesReg_first rfl rfl)).bind fun _ ht => .ok (ht.writePc _)) h

end Sys2Proof.Machine
end

section
/-!
PROOFS. The end of a step, once per encoding: the advance, the flush in its place, and priming, with the reads they make.
-/

namespace Sys2Proof.Machine

/-! ### Fetches -/

/-- The registers play no part in a word read. -/
theorem read32_withRegs (a : Word) (s : State) (b : RegBank) :
    read32 a { s with regs := b } = ((read32 a s).1, { (read32 a s).2 with regs := b }) := by
  simp only [read32, readByte_eq]
  rfl

theorem read16_withRegs (a : Word) (s : State) (b : RegBank) :
    read16 a { s with regs := b } = ((read16 a s).1, { (read16 a s).2 with regs := b }) := by
  simp only [read16, readByte_eq]
  rfl

/-- An ARM fetch (`40_pipeline.md` R355). -/
theorem fetchArm_eq {s : State} (ht : s.cpsr.t = false) :
    fetchArm s =
      ((read32 s.regs.pc s).1, { (read32 s.regs.pc s).2 with regs := s.regs.write .pc (s.regs.pc + 4) }) := by
  obtain ⟨l, hl⟩ := read32_onlyLatch s.regs.pc s
  rw [fetchArm, fetch32, hl, bumpPc, width, ht]
  rfl

/-- A Thumb fetch (`40_pipeline.md` R355). -/
theorem fetchThumb_eq {s : State} (ht : s.cpsr.t = true) :
    fetchThumb s =
      ((read16 s.regs.pc s).1.extractLsb' 0 16,
        { (read16 s.regs.pc s).2 with regs := s.regs.write .pc (s.regs.pc + 2) }) := by
  obtain ⟨l, hl⟩ := read16_onlyLatch s.regs.pc s
  rw [fetchThumb, fetch16, hl, bumpPc, width, ht]
  rfl

/-! ### The advance and the flush -/

/-- The ARM advance (`40_pipeline.md` R355). -/
theorem advance_arm {s : State} (ht : s.cpsr.t = false) :
    advance s =
      { (read32 s.regs.pc s).2 with
        regs := s.regs.write .pc (s.regs.pc + 4)
        armFetched := some (read32 s.regs.pc s).1
        armExecuting := s.armDecoding
        armDecoding := some (read32 s.regs.pc s).1 } := by
  obtain ⟨l, hl⟩ := read32_onlyLatch s.regs.pc s
  rw [advance, ht, if_neg Bool.false_ne_true, fetchArm_eq ht, hl]

/-- The Thumb advance (`40_pipeline.md` R355). -/
theorem advance_thumb {s : State} (ht : s.cpsr.t = true) :
    advance s =
      { (read16 s.regs.pc s).2 with
        regs := s.regs.write .pc (s.regs.pc + 2)
        thFetched := some ((read16 s.regs.pc s).1.extractLsb' 0 16)
        thExecuting := s.thDecoding
        thDecoding := some ((read16 s.regs.pc s).1.extractLsb' 0 16) } := by
  obtain ⟨l, hl⟩ := read16_onlyLatch s.regs.pc s
  rw [advance, ht, if_pos rfl, fetchThumb_eq ht, hl]

/-- The ARM flush (`40_pipeline.md` R357). -/
theorem flush_arm {s : State} (ht : s.cpsr.t = false) :
    flush s =
      { (read32 (s.regs.pc + 4) (read32 s.regs.pc s).2).2 with
        regs := s.regs.write .pc (s.regs.pc + 8)
        armFetched := none
        armExecuting := some (read32 s.regs.pc s).1
        armDecoding := some (read32 (s.regs.pc + 4) (read32 s.regs.pc s).2).1
        flushFlag := true } := by
  obtain ⟨l, hl⟩ := read32_onlyLatch s.regs.pc s
  have hpc : s.regs.pc + 4 + 4 = s.regs.pc + 8 := by rw [BitVec.add_assoc]; rfl
  have hsecond : (fetchArm s).2.cpsr.t = false := by rw [fetchArm_eq ht, hl]; exact ht
  have htwice := fetchArm_eq hsecond
  rw [fetchArm_eq ht] at htwice
  simp only [RegBank.write_pc_pc, RegBank.write_write, read32_withRegs, hpc] at htwice
  rw [flush, ht, if_neg Bool.false_ne_true, fetchArm_eq ht]
  dsimp only
  rw [htwice]

/-- The Thumb flush (`40_pipeline.md` R357). -/
theorem flush_thumb {s : State} (ht : s.cpsr.t = true) :
    flush s =
      { (read16 (s.regs.pc + 2) (read16 s.regs.pc s).2).2 with
        regs := s.regs.write .pc (s.regs.pc + 4)
        thFetched := none
        thExecuting := some ((read16 s.regs.pc s).1.extractLsb' 0 16)
        thDecoding := some ((read16 (s.regs.pc + 2) (read16 s.regs.pc s).2).1.extractLsb' 0 16)
        flushFlag := true } := by
  obtain ⟨l, hl⟩ := read16_onlyLatch s.regs.pc s
  have hpc : s.regs.pc + 2 + 2 = s.regs.pc + 4 := by rw [BitVec.add_assoc]; rfl
  have hsecond : (fetchThumb s).2.cpsr.t = true := by rw [fetchThumb_eq ht, hl]; exact ht
  have htwice := fetchThumb_eq hsecond
  rw [fetchThumb_eq ht] at htwice
  simp only [RegBank.write_pc_pc, RegBank.write_write, read16_withRegs, hpc] at htwice
  rw [flush, ht, if_pos rfl, fetchThumb_eq ht]
  dsimp only
  rw [htwice]

theorem flush_flushFlag (s : State) : (flush s).flushFlag = true := by
  unfold flush
  split <;> rfl

/-- A requested flush takes the place of the advance (`40_pipeline.md` R354, R359). -/
theorem finishStep_of_flush {s : State} (hreq : s.flushRequested = true) :
    finishStep s = { flush s with flushFlag := false, flushRequested := false } := by
  simp only [finishStep, hreq, if_true, flush_flushFlag]

end Sys2Proof.Machine
end

section
/-!
PROOFS. The frames of an instruction and the invariants of a step, read off the grant of every instruction.
-/

namespace Sys2Proof.Machine

/-! ### The frames -/

/-- A raising instruction stores nothing (`60_exceptions.md` R903). -/
theorem mem_storeCells_of_effect {i : Instr} {s : State} {k : Nat} (h : k ∈ (instrEffect i s).cells) :
    k ∈ storeCells i s := by
  cases hraises : raises i with
  | none => rwa [instrEffect_of_no_raise hraises] at h
  | some e =>
    rw [instrEffect, hraises] at h
    cases h

/-- Every address an instruction stores to is the storage of a byte write (`20_memory.md` R172). -/
theorem storeCells_stored {i : Instr} {s : State} {k : Nat} (h : k ∈ storeCells i s) : ∃ a, writeCell s a = some k := by
  have hstored {a : Word} {n : Nat} (hk : k ∈ storedCells s a n) : ∃ a, writeCell s a = some k := by
    obtain ⟨j, -, hj⟩ := mem_storedCells.mp hk
    exact ⟨_, hj⟩
  unfold storeCells at h
  split at h
  case h_15 =>
    split at h
    · exact hstored h
    · cases h
  all_goals exact hstored h

/-- A byte write never reaches the boot ROM (`20_memory.md` R172). -/
theorem writeCell_past_boot {s : State} {a : Word} {k : Nat} (h : writeCell s a = some k) : 0x4000 ≤ k := by
  unfold writeCell at h
  generalize regionOf a = r at h
  dsimp only at h
  split at h
  · cases h
  split at h
  · obtain rfl := Option.some.inj h
    have hbase : r.base = 0 ∨ 0x4000 ≤ r.base := by cases r <;> decide
    have hbios : r.base = 0 → r = .bios := by cases r <;> decide
    rcases hbase with hzero | hhigh
    · exact absurd (hbios hzero) (by assumption)
    · omega
  · cases h

/-- A raising instruction does not read memory, so its latch is granted no more than the instruction's own. -/
theorem effect_latch {i : Instr} {s : State} (h : readsMemory i = false) : (instrEffect i s).latch = false := by
  unfold instrEffect
  split
  · rfl
  · exact h

/-- Settles O53: only what the instruction's grant names is written. -/
theorem registerFrame : Obligations.RegisterFrame := by
  unfold Obligations.RegisterFrame
  intro i s t cell h hraises hpc hdest
  refine (exec_allowed h).regs cell hpc ?_
  rw [instrEffect_of_no_raise hraises]
  rintro ⟨r, hr, hc⟩
  exact hdest r hr hc

/-- Settles O54: the bytes granted are the ones the instruction stores to. -/
theorem memoryFrame : Obligations.MemoryFrame := by
  unfold Obligations.MemoryFrame
  intro i s t h
  have hread (k : Nat) (hk : k ∉ storeCells i s) : t.mem.read k = s.mem.read k :=
    (exec_allowed h).mem k (mt mem_storeCells_of_effect hk)
  refine ⟨hread, fun hnone k => hread k ?_⟩
  rw [hnone]
  exact List.not_mem_nil

/-- An instruction other than MSR to a saved status word writes none (`45_arm_psr_transfer.md` R605). -/
theorem savesStatus_eq_false {i : Instr} (hreg : ∀ c mask rm, i ≠ .msrReg c true mask rm)
    (himm : ∀ c mask rot imm8, i ≠ .msrImm c true mask rot imm8) : savesStatus i = false := by
  unfold savesStatus
  split
  case h_1 c r mask rm =>
    exact Bool.eq_false_iff.mpr fun hr => hreg c mask rm (hr ▸ rfl)
  case h_2 c r mask rot imm8 =>
    exact Bool.eq_false_iff.mpr fun hr => himm c mask rot imm8 (hr ▸ rfl)
  case h_3 => rfl

/-- Settles O55: the status words and the latch by the instruction's grant, the rest untouched by every one. -/
theorem statusFrame : Obligations.StatusFrame := by
  unfold Obligations.StatusFrame
  intro i s t h
  have hallowed := exec_allowed h
  refine ⟨fun hraises => ?status, fun hlatch => hallowed.latch (effect_latch hlatch), ?rest⟩
  case status =>
    rw [instrEffect_of_no_raise hraises] at hallowed
    exact ⟨hallowed.status, fun hreg himm => hallowed.spsr (savesStatus_eq_false hreg himm)⟩
  case rest =>
    rw [hallowed.untouched]
    exact ⟨rfl, rfl, rfl, rfl, rfl, rfl, rfl, rfl, rfl, rfl, rfl, rfl, rfl, rfl, rfl⟩

/-- Settles O56: every instruction stays where it is or jumps to an aligned place. -/
theorem onlyAFlushMovesPc : Obligations.OnlyAFlushMovesPc := by
  unfold Obligations.OnlyAFlushMovesPc
  intro i s t h hquiet
  rcases (exec_allowed h).place with ⟨hreq, hpc, ht⟩ | hjump
  · exact .inl ⟨hreq.trans hquiet, hpc, ht⟩
  · exact .inr hjump

/-! ### A step -/

/-- What runs in a step keeps to a grant that stores where byte writes store; then the step ends. -/
theorem step_allowed {s t : State} (h : step s = .next t) :
    ∃ (E : Effect) (u : State), t = finishStep u ∧ E.Allows { s with flushRequested := false } u ∧
      ∀ k ∈ E.cells, 0x4000 ≤ k := by
  obtain ⟨-, -, u, rfl, hrun⟩ := step_eq_next h
  rcases hrun with ⟨e, -, -, rfl⟩ | ⟨i, -, hexec⟩
  · exact ⟨entryEffect, _, rfl, enterException_allowed e _, fun k hk => nomatch hk⟩
  · refine ⟨_, u, rfl, exec_allowed hexec, fun k hk => ?_⟩
    obtain ⟨a, ha⟩ := storeCells_stored (mem_storeCells_of_effect hk)
    exact writeCell_past_boot ha

/-- Settles O58: no instruction touches the parameters or stores into the boot ROM, and the end of a step only fetches. -/
theorem bootRomIsConstant : Obligations.BootRomIsConstant := by
  unfold Obligations.BootRomIsConstant
  intro s t h
  obtain ⟨E, u, rfl, hallowed, hcells⟩ := step_allowed h
  obtain ⟨hconfig, -, -, hmem, hrom, hboot, hlocked, -⟩ := (finishStep_onlyFetches u).frame
  have huntouched := hallowed.untouched
  refine ⟨hconfig.trans ?_, hrom.trans ?_, hboot.trans ?_, hlocked.trans ?_, fun k hk => ?_⟩
  · rw [huntouched]
  · rw [huntouched]
  · rw [huntouched]
  · rw [huntouched]
  · rw [hmem]
    exact hallowed.mem k fun hgranted => Nat.not_lt.mpr (hcells k hgranted) hk

/-! ### The invariant -/

/-- An address is aligned when its number is a multiple of the width (`44_arm_branch.md` R556). -/
theorem alignPc_fixed_iff (t : Bool) (v : Word) : alignPc t v = v ↔ v.toNat % (if t then 2 else 4) = 0 := by
  cases t with
  | true =>
    have hnat : (alignPc true v).toNat = v.toNat / 2 * 2 := alignHalf_toNat v
    rw [← BitVec.toNat_inj, hnat, if_pos rfl]
    omega
  | false =>
    have hnat : (alignPc false v).toNat = v.toNat / 4 * 4 := alignWord_toNat v
    rw [← BitVec.toNat_inj, hnat, if_neg Bool.false_ne_true]
    omega

theorem alignPc_add {t : Bool} {v n : Word} (hv : alignPc t v = v) (hn : alignPc t n = n) :
    alignPc t (v + n) = v + n := by
  rw [alignPc_fixed_iff] at *
  rw [BitVec.toNat_add]
  cases t with
  | true =>
    rw [if_pos rfl] at *
    omega
  | false =>
    rw [if_neg Bool.false_ne_true] at *
    omega

/-- The advance keeps the invariant: the decoding slot it runs next holds an instruction (`40_pipeline.md` R355). -/
theorem advance_inv {s : State} (h : Inv s) : Inv (advance s) := by
  obtain ⟨hmem, hpc, hslots, hquiet⟩ := h
  unfold PcAligned SlotsLive at *
  cases ht : s.cpsr.t with
  | true =>
    obtain ⟨l, hl⟩ := read16_onlyLatch s.regs.pc s
    rw [advance_thumb ht, hl]
    have haligned : alignPc s.cpsr.t (s.regs.pc + 2) = s.regs.pc + 2 := by
      rw [ht] at hpc ⊢
      exact alignPc_add hpc (by decide)
    rw [ht] at hslots
    refine ⟨hmem, ?_, fun hprimed => ?_, hquiet⟩
    · exact haligned
    · rw [if_pos ht]
      exact ⟨(hslots hprimed).2, rfl⟩
  | false =>
    obtain ⟨l, hl⟩ := read32_onlyLatch s.regs.pc s
    rw [advance_arm ht, hl]
    have haligned : alignPc s.cpsr.t (s.regs.pc + 4) = s.regs.pc + 4 := by
      rw [ht] at hpc ⊢
      exact alignPc_add hpc (by decide)
    rw [ht] at hslots
    refine ⟨hmem, ?_, fun hprimed => ?_, hquiet⟩
    · exact haligned
    · rw [if_neg (ht ▸ Bool.false_ne_true)]
      exact ⟨(hslots hprimed).2, rfl⟩

/-- A flush fills the slots, so the invariant holds once its flags are down (`40_pipeline.md` R357). -/
theorem flush_inv {s : State} (hmem : MemCanonical s) (hpc : PcAligned s) (primed : Bool) :
    Inv { flush s with flushFlag := false, flushRequested := false, primed := primed } := by
  unfold PcAligned at hpc
  cases ht : s.cpsr.t with
  | true =>
    obtain ⟨l, hl⟩ := read16_onlyLatch s.regs.pc s
    obtain ⟨l', hl'⟩ := read16_onlyLatch (s.regs.pc + 2) (read16 s.regs.pc s).2
    rw [flush_thumb ht, hl', hl]
    have haligned : alignPc s.cpsr.t (s.regs.pc + 4) = s.regs.pc + 4 := by
      rw [ht] at hpc ⊢
      exact alignPc_add hpc (by decide)
    refine ⟨hmem, ?_, fun _ => ?_, rfl, rfl⟩
    · exact haligned
    · rw [if_pos ht]
      exact ⟨rfl, rfl⟩
  | false =>
    obtain ⟨l, hl⟩ := read32_onlyLatch s.regs.pc s
    obtain ⟨l', hl'⟩ := read32_onlyLatch (s.regs.pc + 4) (read32 s.regs.pc s).2
    rw [flush_arm ht, hl', hl]
    have haligned : alignPc s.cpsr.t (s.regs.pc + 8) = s.regs.pc + 8 := by
      rw [ht] at hpc ⊢
      exact alignPc_add hpc (by decide)
    refine ⟨hmem, ?_, fun _ => ?_, rfl, rfl⟩
    · exact haligned
    · rw [if_neg (ht ▸ Bool.false_ne_true)]
      exact ⟨rfl, rfl⟩

/-- What stays where it is keeps the slots live; what jumps leaves an aligned place to flush from. -/
theorem finishStep_inv {E : Effect} {s u : State} (h : Inv s) (hu : E.Allows s u) : Inv (finishStep u) := by
  obtain ⟨hmem, hpc, hslots, hflag, hreq⟩ := h
  have hmem' : MemCanonical u := hu.canonical hmem
  have hflag' : u.flushFlag = false := by rw [hu.untouched]; exact hflag
  rcases hu.place with ⟨hreq', hpc', ht⟩ | ⟨hreq', haligned⟩
  · rw [finishStep_of_no_flush (hreq'.trans hreq) hflag']
    refine advance_inv ⟨hmem', ?_, ?_, hflag', hreq'.trans hreq⟩
    · unfold PcAligned at *
      rw [ht, hpc', hpc]
    · unfold SlotsLive at *
      rw [ht, hu.untouched]
      exact hslots
  · rw [finishStep_of_flush hreq']
    exact flush_inv hmem' haligned (flush u).primed

/-- Settles O57: the instruction keeps to its grant (`step_allowed`), and the end of the step restores the invariant. -/
theorem stepKeepsInv : Obligations.StepKeepsInv := by
  unfold Obligations.StepKeepsInv
  intro s t hinv h
  obtain ⟨E, u, rfl, hallowed, -⟩ := step_allowed h
  have hquiet : { s with flushRequested := false } = s := by rw [← hinv.2.2.2.2]
  rw [hquiet] at hallowed
  exact finishStep_inv hinv hallowed

end Sys2Proof.Machine
end

section
/-!
PROOFS. Exceptions: the entry, the instructions that raise one, the return from a software interrupt, and User mode, which
only an exception leaves (`60_exceptions.md`).
-/

namespace Sys2Proof.Machine

/-! ### The entry -/

/-- The state an exception's entry leaves (`60_exceptions.md` R903). -/
theorem enterException_eq (e : Exception) (s : State) :
    enterException e s =
      { s with
        cpsr := { s.cpsr with mode := e.mode, t := false, i := true, f := s.cpsr.f || e == .fiq }
        spsr := s.spsr.saveIn e.bank s.cpsr
        regs := (s.regs.write e.bank.r14 (e.link (instrAddress s) (width s.cpsr))).write .pc e.vector
        flushRequested := true } := by
  cases e <;> rfl

/-- Settles O10: the entry (`enterException_eq`) at each exception's row of the table. -/
theorem exceptionEntry : Obligations.ExceptionEntry := by
  unfold Obligations.ExceptionEntry
  intro s w a enter
  have haddress : instrAddress s = a := sub_add_eq_sub_sub s.regs.pc w w
  have hentry (e : Exception) {m : ModeBits} {k : Bank} {lr v : Word} {f : Bool} (hmode : e.mode = m) (hbank : e.bank = k)
      (hlink : e.link a w = lr) (hvector : e.vector = v) (hf : (s.cpsr.f || e == .fiq) = f) :
      enterException e s = enter m k lr v f := by
    rw [enterException_eq, haddress, hf, hmode, hbank, hvector, ← hlink]
    rfl
  have hkept : (s.cpsr.f || false) = s.cpsr.f := Bool.or_false _
  exact ⟨hentry .undefinedInstruction rfl rfl rfl rfl hkept, hentry .softwareInterrupt rfl rfl rfl rfl hkept,
    hentry .prefetchAbort rfl rfl rfl rfl hkept, hentry .dataAbort rfl rfl rfl rfl hkept,
    hentry .irq rfl rfl rfl rfl hkept, hentry .fiq rfl rfl rfl rfl (Bool.or_true _)⟩

/-! ### The raising instructions -/

/-- The reason a raised exception is a fault for (`60_exceptions.md` R900). -/
def raiseReason (e : Exception) : FaultReason :=
  if e = .softwareInterrupt then .softwareInterrupt else .undefinedInstruction

/-- An instruction that raises an exception does no more (`48_arm_block_coproc_swi.md` R770 to R790, `49_thumb.md` R877,
R881). -/
theorem exec_of_raises {i : Instr} {e : Exception} {s : State} (h : raises i = some e)
    (hpass : ∀ c, armCond i = some c → Cond.passed c s.cpsr = true) :
    exec i s = answer (raise e (raiseReason e) s) := by
  unfold raises at h
  split at h
  case h_11 => cases h
  case h_7 | h_8 | h_9 | h_10 =>
    cases h
    rfl
  all_goals
    cases h
    exact whenPassed_of_passed (hpass _ rfl) _

/-- Settles O42: an instruction that raises an exception does no more, and raising is a case on the policy. -/
theorem raisingInstructions : Obligations.RaisingInstructions := by
  unfold Obligations.RaisingInstructions
  intro i e s h hpass
  rw [exec_of_raises h hpass, raise]
  refine ⟨fun hnoop => ?_, fun htrap => ?_, fun hfault => ?_⟩
  · rw [hnoop, answer_ok]
  · rw [htrap, answer_ok]
  · rw [hfault, answer_error]
    rfl

/-- Settles O43: the entry leaves R14_svc after the instruction (`exceptionEntry`), and a data-processing write to R15 with
S = 1 returns there under the saved status word (`dataProcessingToPc`). -/
theorem softwareInterruptReturns : Obligations.SoftwareInterruptReturns := by
  unfold Obligations.SoftwareInterruptReturns
  intro s htrap w i
  have hcall : exec i s = .next (enterException .softwareInterrupt s) := by
    refine (raisingInstructions i .softwareInterrupt s ?_ fun c hc => ?_).2.1 htrap
    · simp only [i]
      split <;> rfl
    · simp only [i] at hc
      split at hc <;> cases hc
      rfl
  obtain ⟨-, hreturn, -⟩ := dataProcessingToPc .mov .al 0 (.immShift 0 .lsl 14) (enterException .softwareInterrupt s) .r0 _
    rfl rfl rfl rfl ⟨.r14svc, rfl, rfl⟩
  refine ⟨_, _, hcall, hreturn rfl, ?_⟩
  have hlink : s.regs.pc - (w + w) + w = s.regs.pc - w := by rw [sub_add_eq_sub_sub, sub_add_cancel]
  have hregs : (enterException .softwareInterrupt s).regs = (s.regs.write .r14svc (s.regs.pc - w)).write .pc 0x08 :=
    (enterException_regs _ s).trans (hlink ▸ rfl)
  have hlr : (enterException .softwareInterrupt s).regs.read .r14svc = s.regs.pc - w := by rw [hregs]; rfl
  have hsaved : getSpsr (enterException .softwareInterrupt s) = s.cpsr := rfl
  change writePc ((enterException .softwareInterrupt s).regs.read .r14svc) _ = _
  rw [hlr, hsaved, writePc, hregs, RegBank.write_write, enterException_eq]
  rfl

/-! ### User mode -/

/-- The registers banked for a mode other than User (`10_state.md` R62). -/
def bankedCells : List RegCell :=
  [.r8fiq, .r9fiq, .r10fiq, .r11fiq, .r12fiq, .r13fiq, .r14fiq, .r13irq, .r14irq, .r13svc, .r14svc, .r13abt, .r14abt,
    .r13und, .r14und]

theorem pc_not_banked : ∀ cell ∈ bankedCells, cell ≠ .pc := by decide

/-- Under User mode no index names a register banked for another mode (`10_state.md` R62). -/
theorem resolve_userMode_not_banked (n : Reg) : ∀ cell ∈ bankedCells, resolve userMode n.toNat ≠ .ok cell := by
  revert n
  decide

/-- In User mode every instruction writes the registers of that mode (`48_arm_block_coproc_swi.md` R758). -/
theorem destMode_userMode {s : State} (i : Instr) (h : s.cpsr.mode = userMode) : destMode i s = userMode := by
  unfold destMode
  split
  case h_5 => exact h
  all_goals
    rw [h]
    exact ite_self _

/-- An instruction that raises an exception does nothing unless it enters it (`60_exceptions.md` R900). -/
theorem exec_of_raises_no_trap {i : Instr} {e : Exception} {s t : State} (h : raises i = some e)
    (hpolicy : s.config.excPolicy ≠ .trap) (hexec : exec i s = .next t) : t = s := by
  by_cases hpass : ∀ c, armCond i = some c → Cond.passed c s.cpsr = true
  · rw [exec_of_raises h hpass, answer_eq_next, raise_eq_ok] at hexec
    rcases hexec with ⟨-, rfl⟩ | ⟨htrap, -⟩
    · rfl
    · exact absurd htrap hpolicy
  · push Not at hpass
    obtain ⟨c, hc, hfail⟩ := hpass
    rw [exec_of_failed hc (Bool.eq_false_iff.mpr hfail)] at hexec
    exact (Host.Outcome.next.inj hexec).symm

/-- From User mode, what enters no exception keeps the control bits but T, the saved status words but the dummy, and the
registers banked for other modes (`60_exceptions.md` R920). -/
structure Confined (s t : State) : Prop where
  control : ControlKept s.cpsr t.cpsr
  spsr : t.spsr = { s.spsr with dummy := t.spsr.dummy }
  banked : ∀ cell ∈ bankedCells, t.regs.read cell = s.regs.read cell

theorem exec_confined {i : Instr} {s t : State} (hraises : raises i = none) (huser : s.cpsr.mode = userMode)
    (h : exec i s = .next t) : Confined s t := by
  have hallowed := exec_allowed h
  rw [instrEffect_of_no_raise hraises] at hallowed
  obtain ⟨hcontrol, hspsr⟩ := hallowed.user rfl huser
  refine ⟨hcontrol, hspsr, fun cell hcell => hallowed.regs cell (pc_not_banked cell hcell) ?_⟩
  rintro ⟨r, -, hr⟩
  rw [destMode_userMode i huser] at hr
  exact resolve_userMode_not_banked r cell hcell hr

theorem Confined.finishStep {s u : State} (h : Confined s u) : Confined s (finishStep u) := by
  obtain ⟨hcontrol, hspsr, hbanked⟩ := h
  obtain ⟨-, hcpsr, hspsr', -, -, -, -, -, -, -, -, -, hregs⟩ := (finishStep_onlyFetches u).frame
  exact ⟨hcpsr ▸ hcontrol, hspsr' ▸ hspsr,
    fun cell hcell => (hregs cell (pc_not_banked cell hcell)).trans (hbanked cell hcell)⟩

/-- Settles O59: an instruction that raises nothing is confined (`exec_confined`), one that raises something does nothing
unless it enters an exception (`exec_of_raises_no_trap`), and the end of a step only fetches. -/
theorem userModeIsConfined : Obligations.UserModeIsConfined := by
  unfold Obligations.UserModeIsConfined
  intro s t h huser
  obtain ⟨-, -, u, rfl, hrun⟩ := step_eq_next h
  suffices hstep : Confined s (finishStep u) ∨ s.config.excPolicy = .trap ∧
      (pendingInterrupt s ≠ none ∨ ∃ i, executingInstr s = some i ∧ raises i ≠ none) from
    hstep.imp_left fun ⟨⟨hmode, hi, hf⟩, hspsr, hbanked⟩ => ⟨hmode.trans huser, hi, hf, hspsr, hbanked⟩
  rcases hrun with ⟨e, htrap, hpending, -⟩ | ⟨i, hi, hexec⟩
  · refine .inr ⟨htrap, .inl ?_⟩
    rw [hpending]
    exact Option.some_ne_none e
  · cases hraises : raises i with
    | none =>
      obtain ⟨hcontrol, hspsr, hbanked⟩ := exec_confined (s := { s with flushRequested := false }) hraises huser hexec
      exact .inl (Confined.finishStep ⟨hcontrol, hspsr, hbanked⟩)
    | some e =>
      by_cases htrap : s.config.excPolicy = .trap
      · exact .inr ⟨htrap, .inr ⟨i, hi, hraises ▸ Option.some_ne_none e⟩⟩
      · obtain rfl := exec_of_raises_no_trap (s := { s with flushRequested := false }) hraises htrap hexec
        exact .inl (Confined.finishStep ⟨⟨rfl, rfl, rfl⟩, rfl, fun _ _ => rfl⟩)

end Sys2Proof.Machine
end

section
/-!
PROOFS. The step around an instruction: what it runs and how it ends, the bytes it runs after priming, and the invariant at
the start of a run (`40_pipeline.md` R350 to R362, `70_reset_and_hazards.md` R950 to R954).
-/

namespace Sys2Proof.Machine

/-! ### The end of a step -/

/-- After a recorded fault every step answers that fault (`70_reset_and_hazards.md` R972). -/
theorem step_of_faulted {s : State} {r : FaultReason} (h : s.faulted = some r) : step s = .fault (.stopped r s) := by
  have hs : { s with faulted := some r } = s := by rw [← h]
  rw [step, stepWith, h]
  exact congrArg (fun t => Host.Outcome.fault (Fault.stopped r t)) hs

/-- Settles O8: the advance and the flush of each encoding, and the fault that stays (`step_of_faulted`). -/
theorem stepEnds : Obligations.StepEnds := by
  unfold Obligations.StepEnds
  intro s
  refine ⟨fun hreq hflag ht => ?advanceArm, fun hreq hflag ht => ?advanceThumb, fun hreq ht => ?flushArm,
    fun hreq ht => ?flushThumb, fun r => rfl, fun r t h => ?fault⟩
  case advanceArm => rw [finishStep_of_no_flush hreq hflag, advance_arm ht]
  case advanceThumb => rw [finishStep_of_no_flush hreq hflag, advance_thumb ht]
  case flushArm => rw [finishStep_of_flush hreq, flush_arm ht]
  case flushThumb => rw [finishStep_of_flush hreq, flush_thumb ht]
  case fault =>
    obtain ⟨r', u, hstop⟩ := step_fault_recorded h
    cases hstop
    exact ⟨rfl, step_of_faulted rfl⟩

/-! ### What a step runs -/

/-- A Thumb instruction is its handler's answer (`40_pipeline.md` R363). -/
theorem exec_eq_answer {i : Instr} (hc : armCond i = none) (s : State) : ∃ handler, exec i s = answer handler := by
  cases i <;> cases hc
  case tBCond c soff8 =>
    refine ⟨.ok (if Cond.passed c s.cpsr then writePc (s.regs.pc + soff8Offset soff8) s else s), ?_⟩
    simp only [exec, execTBCond]
    split <;> rfl
  case tB => exact ⟨.ok _, rfl⟩
  all_goals exact ⟨_, rfl⟩

theorem answer_ne_refused (x : Except Fault State) (r : Refusal) : answer x ≠ .refused r := by
  cases x <;> nofun

/-- No instruction is refused. -/
theorem exec_ne_refused (i : Instr) (s : State) (r : Refusal) : exec i s ≠ .refused r := by
  cases hc : armCond i with
  | none =>
    obtain ⟨handler, hexec⟩ := exec_eq_answer hc s
    rw [hexec]
    exact answer_ne_refused handler r
  | some c =>
    obtain ⟨handler, hexec⟩ := exec_eq_whenPassed hc s
    rw [hexec, whenPassed]
    split
    · exact answer_ne_refused handler r
    · nofun

/-- A step whose instruction faults answers that fault (`40_pipeline.md` R353). -/
theorem step_of_exec_fault {i : Instr} {s : State} {f : Fault} (hfault : s.faulted = none) (hprimed : s.primed = true)
    (hi : executingInstr s = some i) (hquiet : s.config.excPolicy = .noop ∨ pendingInterrupt s = none)
    (hexec : exec i { s with flushRequested := false } = .fault f) : step s = .fault f := by
  have hrun : dispatch exec { s with flushRequested := false } = .fault f :=
    (dispatch_of_executing (s := { s with flushRequested := false }) hi hquiet).trans hexec
  unfold step stepWith
  rw [hrun, hfault, hprimed, if_pos rfl]

/-- Settles O6: the executing slot's instruction runs where no interrupt is heeded (`step_of_exec_next`,
`step_of_exec_fault`), and none is refused. -/
theorem stepRunsExecutingSlot : Obligations.StepRunsExecutingSlot := by
  unfold Obligations.StepRunsExecutingSlot
  intro s i
  refine ⟨fun hfault hprimed => ?_, fun hfault hprimed hquiet hi => ⟨fun t => ?_, fun f => ?_, exec_ne_refused i _⟩⟩
  · rw [step, stepWith, hfault, hprimed]
    rfl
  · exact step_of_exec_next hfault hprimed hi hquiet
  · exact step_of_exec_fault hfault hprimed hi hquiet

/-! ### The bytes at the program counter -/

/-- A word read of four bytes in storage (`20_memory.md` R181). -/
theorem read32_of_cells {s : State} {a : Word} {k0 k1 k2 k3 : Nat} (ha : alignPc false a = a)
    (h0 : readCell s a = some k0) (h1 : readCell s (a + 1) = some k1) (h2 : readCell s (a + 2) = some k2)
    (h3 : readCell s (a + 3) = some k3) :
    (read32 a s).1 = s.mem.read k3 ++ s.mem.read k2 ++ s.mem.read k1 ++ s.mem.read k0 := by
  have haligned : alignWord a = a := ha
  have hskew : wordSkew a = 0 := by
    rw [wordSkew_eq]
    exact congrArg (8 * ·) ((alignPc_fixed_iff false a).mp ha)
  simp only [read32, haligned, hskew, readByte_eq, inspectByte, readCell_latch, h0, h1, h2, h3]
  simp [BitVec.rotateRight_def]

/-- A fetched halfword of two bytes in storage (`20_memory.md` R182, R190). -/
theorem read16_of_cells {s : State} {a : Word} {k0 k1 : Nat} (ha : alignPc true a = a)
    (h0 : readCell s a = some k0) (h1 : readCell s (a + 1) = some k1) :
    (read16 a s).1.extractLsb' 0 16 = s.mem.read k1 ++ s.mem.read k0 := by
  have haligned : alignHalf a = a := ha
  have heven : a.toNat % 2 = 0 := (alignPc_fixed_iff true a).mp ha
  simp only [read16, haligned, rotateRight_halfSkew, if_pos heven, readByte_eq, inspectByte, readCell_latch, h0, h1]
  exact (BitVec.extractLsb'_setWidth_of_le (by decide)).trans BitVec.extractLsb'_eq_self

theorem alignPc_true_of_low {a : Word} (h : a.extractLsb' 0 1 = 0) : alignPc true a = a := by
  refine (alignPc_fixed_iff true a).mpr ?_
  have hnat := congrArg BitVec.toNat h
  simpa [BitVec.extractLsb'_toNat] using hnat

theorem alignPc_false_of_low {a : Word} (h : a.extractLsb' 0 2 = 0) : alignPc false a = a := by
  refine (alignPc_fixed_iff false a).mpr ?_
  have hnat := congrArg BitVec.toNat h
  simpa [BitVec.extractLsb'_toNat] using hnat

theorem pendingInterrupt_of_low {s : State} (h : LinesLow s) : pendingInterrupt s = none := by
  obtain ⟨hirq, hfiq⟩ := h
  rw [pendingInterrupt, hirq, hfiq]
  rfl

/-- Priming changes what fetching changes, and marks the state (`40_pipeline.md` R351). -/
theorem initializeForExecution_arm {s : State} (ht : s.cpsr.t = false) :
    ∃ l d, initializeForExecution s = { s with
      openBusLatch := l
      regs := s.regs.write .pc (s.regs.pc + 8)
      armFetched := none
      armExecuting := some (read32 s.regs.pc s).1
      armDecoding := d
      flushFlag := false
      primed := true } := by
  obtain ⟨l, hl⟩ := read32_onlyLatch s.regs.pc s
  obtain ⟨l', hl'⟩ := read32_onlyLatch (s.regs.pc + 4) (read32 s.regs.pc s).2
  rw [initializeForExecution, flush_arm ht, hl', hl]
  exact ⟨l', _, rfl⟩

theorem initializeForExecution_thumb {s : State} (ht : s.cpsr.t = true) :
    ∃ l d, initializeForExecution s = { s with
      openBusLatch := l
      regs := s.regs.write .pc (s.regs.pc + 4)
      thFetched := none
      thExecuting := some ((read16 s.regs.pc s).1.extractLsb' 0 16)
      thDecoding := d
      flushFlag := false
      primed := true } := by
  obtain ⟨l, hl⟩ := read16_onlyLatch s.regs.pc s
  obtain ⟨l', hl'⟩ := read16_onlyLatch (s.regs.pc + 2) (read16 s.regs.pc s).2
  rw [initializeForExecution, flush_thumb ht, hl', hl]
  exact ⟨l', _, rfl⟩

/-- Settles O7: priming puts the word or halfword at the program counter into the executing slot, and its bytes are the ones
in storage (`read32_of_cells`, `read16_of_cells`). -/
theorem stepRunsTheBytesAtPc : Obligations.StepRunsTheBytesAtPc := by
  unfold Obligations.StepRunsTheBytesAtPc
  intro s k0 k1 hfault hlines h0 h1
  refine ⟨fun ht hlow t hexec => ?thumb, fun ht hlow k2 k3 h2 h3 t hexec => ?arm⟩
  case thumb =>
    have hbytes := read16_of_cells (alignPc_true_of_low hlow) h0 h1
    obtain ⟨l, d, hprimed⟩ := initializeForExecution_thumb ht
    rw [hprimed] at hexec ⊢
    refine step_of_exec_next hfault rfl ?_ (hlines.imp_right pendingInterrupt_of_low) hexec
    rw [executingInstr, if_pos ht, hbytes]
    rfl
  case arm =>
    have hbytes := read32_of_cells (alignPc_false_of_low hlow) h0 h1 h2 h3
    obtain ⟨l, d, hprimed⟩ := initializeForExecution_arm ht
    rw [hprimed] at hexec ⊢
    refine step_of_exec_next hfault rfl ?_ (hlines.imp_right pendingInterrupt_of_low) hexec
    rw [executingInstr, if_neg (ht ▸ Bool.false_ne_true), hbytes]
    rfl

/-! ### The start of a run -/

/-- What the loads and the launch writes keep of a fresh state. -/
theorem FreshReset.quiet {s : State} (h : FreshReset s) :
    MemCanonical s ∧ s.flushRequested = false ∧ s.faulted = none := by
  induction h with
  | construct cfg => exact ⟨Memory.wf_writeList _ _ _ rfl, rfl, rfl⟩
  | loadBootImage bytes _ ih =>
    obtain ⟨hmem, hquiet⟩ := ih
    exact ⟨Memory.wf_writeList _ _ _ (Memory.wf_filter _ _ hmem), hquiet⟩
  | loadProgramImage bytes _ ih =>
    obtain ⟨hmem, hquiet⟩ := ih
    exact ⟨Memory.wf_writeList _ _ _ (Memory.wf_filter _ _ hmem), hquiet⟩
  | setBiosLocked b _ ih => exact ih
  | writeRegister i v _ hwrite ih =>
    unfold hostWriteRegister at hwrite
    split at hwrite
    · cases hwrite
    split at hwrite
    · cases hwrite
      exact ih
    · cases hwrite
  | writeCpsr v _ hwrite ih =>
    unfold hostWriteCpsr at hwrite
    split at hwrite <;> cases hwrite
    exact ih

theorem LaunchAligned.pcAligned {s : State} (h : LaunchAligned s) : PcAligned s := by
  unfold LaunchAligned at h
  unfold PcAligned
  split at h
  case isTrue ht =>
    rw [ht]
    exact alignPc_true_of_low h
  case isFalse ht =>
    rw [Bool.eq_false_iff.mpr ht]
    exact alignPc_false_of_low h

/-- Priming flushes, so it brings the invariant (`40_pipeline.md` R351). -/
theorem initializeForExecution_inv {s : State} (hmem : MemCanonical s) (hpc : PcAligned s)
    (hreq : s.flushRequested = false) : Inv (initializeForExecution s) := by
  have hkept : (flush s).flushRequested = false := by
    cases ht : s.cpsr.t with
    | true =>
      obtain ⟨l, hl⟩ := read16_onlyLatch s.regs.pc s
      obtain ⟨l', hl'⟩ := read16_onlyLatch (s.regs.pc + 2) (read16 s.regs.pc s).2
      rw [flush_thumb ht, hl', hl]
      exact hreq
    | false =>
      obtain ⟨l, hl⟩ := read32_onlyLatch s.regs.pc s
      obtain ⟨l', hl'⟩ := read32_onlyLatch (s.regs.pc + 4) (read32 s.regs.pc s).2
      rw [flush_arm ht, hl', hl]
      exact hreq
  exact (congrArg (fun r => Inv { flush s with flushFlag := false, primed := true, flushRequested := r }) hkept).mpr
    (flush_inv hmem hpc true)

/-- Settles O12: the reset state is empty and aligned, and priming brings the invariant to what is canonical and aligned,
as every fresh reset is. -/
theorem invAtReset : Obligations.InvAtReset := by
  unfold Obligations.InvAtReset
  refine ⟨⟨rfl, rfl, (fun hprimed => nomatch hprimed), rfl, rfl⟩, fun s => initializeForExecution_inv, fun s hfresh ha => ?_⟩
  obtain ⟨hmem, hreq, hfault⟩ := hfresh.quiet
  exact ⟨hfault, initializeForExecution_inv hmem ha.pcAligned hreq⟩

end Sys2Proof.Machine
end

section
/-!
PROOFS. The self-branch of either encoding (`70_reset_and_hazards.md` R973): it jumps to itself and the flush fetches it again.
-/

namespace Sys2Proof.Machine

/-- What the executing slot of a state at a self-branch holds (`70_reset_and_hazards.md` R973). -/
theorem atSelfBranch_arm {s : State} (h : atSelfBranch s = true) (ht : s.cpsr.t = false) :
    s.armExecuting = some 0xEAFFFFFE#32 := by
  rw [atSelfBranch, Bool.and_eq_true, executingIsSelfBranch, ht, if_neg Bool.false_ne_true] at h
  exact eq_of_beq h.1

theorem atSelfBranch_thumb {s : State} (h : atSelfBranch s = true) (ht : s.cpsr.t = true) :
    s.thExecuting = some 0xE7FE#16 := by
  rw [atSelfBranch, Bool.and_eq_true, executingIsSelfBranch, ht, if_pos rfl] at h
  exact eq_of_beq h.1

/-- No interrupt is heeded at a self-branch (`60_exceptions.md` R908). -/
theorem quiet_at_selfBranch {s : State} (h : atSelfBranch s = true)
    (hfault : s.config.excPolicy = .fault → pendingInterrupt s = none) :
    s.config.excPolicy = .noop ∨ pendingInterrupt s = none := by
  cases hpolicy : s.config.excPolicy with
  | noop => exact .inl rfl
  | fault => exact .inr (hfault hpolicy)
  | trap =>
    rw [atSelfBranch, Bool.and_eq_true, hpolicy] at h
    exact .inr (Option.isNone_iff_eq_none.mp h.2)

/-- An aligned place below an aligned one by a multiple of the width. -/
theorem alignPc_sub {t : Bool} {v n : Word} (hv : alignPc t v = v) (hn : alignPc t n = n) :
    alignPc t (v - n) = v - n := by
  rw [alignPc_fixed_iff] at *
  rw [BitVec.toNat_sub]
  have hlt := n.isLt
  cases t with
  | true =>
    rw [if_pos rfl] at *
    omega
  | false =>
    rw [if_neg Bool.false_ne_true] at *
    omega

theorem RegBank.write_pc_self (b : RegBank) : b.write .pc b.pc = b := rfl

/-- A jump to where the flush comes back from leaves the ARM program counter as it was (`40_pipeline.md` R357). -/
theorem finishStep_jump_arm {s : State} {target : Word} (ht : s.cpsr.t = false) (ha : alignPc false target = target)
    (hpc : target + 8 = s.regs.pc) (hquiet : FlushQuiet s) :
    ∃ l d, finishStep (writePc target s) = { s with
      openBusLatch := l, armFetched := none, armExecuting := some (read32 target (writePc target s)).1, armDecoding := d } := by
  obtain ⟨hflag, hreq⟩ := hquiet
  have hregs : (writePc target s).regs = s.regs.write .pc target := by rw [writePc_regs, ht, ha]
  have hback : (writePc target s).regs.write .pc (target + 8) = s.regs := by
    rw [hregs, RegBank.write_write, hpc, RegBank.write_pc_self]
  have hplace : (writePc target s).regs.pc = target := by rw [hregs, RegBank.write_pc_pc]
  obtain ⟨l, hl⟩ := read32_onlyLatch target (writePc target s)
  obtain ⟨l', hl'⟩ := read32_onlyLatch (target + 4) (read32 target (writePc target s)).2
  rw [finishStep_of_flush rfl, flush_arm (s := writePc target s) ht, hplace, hback]
  generalize some (read32 (target + 4) (read32 target (writePc target s)).2).1 = d
  rw [hl', hl]
  refine ⟨l', d, ?_⟩
  rw [hflag, hreq]
  rfl

/-- The same in Thumb state. -/
theorem finishStep_jump_thumb {s : State} {target : Word} (ht : s.cpsr.t = true) (ha : alignPc true target = target)
    (hpc : target + 4 = s.regs.pc) (hquiet : FlushQuiet s) :
    ∃ l d, finishStep (writePc target s) = { s with
      openBusLatch := l, thFetched := none
      thExecuting := some ((read16 target (writePc target s)).1.extractLsb' 0 16), thDecoding := d } := by
  obtain ⟨hflag, hreq⟩ := hquiet
  have hregs : (writePc target s).regs = s.regs.write .pc target := by rw [writePc_regs, ht, ha]
  have hback : (writePc target s).regs.write .pc (target + 4) = s.regs := by
    rw [hregs, RegBank.write_write, hpc, RegBank.write_pc_self]
  have hplace : (writePc target s).regs.pc = target := by rw [hregs, RegBank.write_pc_pc]
  obtain ⟨l, hl⟩ := read16_onlyLatch target (writePc target s)
  obtain ⟨l', hl'⟩ := read16_onlyLatch (target + 2) (read16 target (writePc target s)).2
  rw [finishStep_of_flush rfl, flush_thumb (s := writePc target s) ht, hplace, hback]
  generalize some ((read16 (target + 2) (read16 target (writePc target s)).2).1.extractLsb' 0 16) = d
  rw [hl', hl]
  refine ⟨l', d, ?_⟩
  rw [hflag, hreq]
  rfl

/-- Settles O60: the branch jumps two instructions back, where its own bytes stand, and the flush fetches them again
(`finishStep_jump_arm`, `finishStep_jump_thumb`). -/
theorem selfBranchRepeats : Obligations.SelfBranchRepeats := by
  unfold Obligations.SelfBranchRepeats
  intro s k hfaulted hprimed hquiet haligned hself hpolicy
  have hnone := quiet_at_selfBranch hself hpolicy
  have hkept : { s with flushRequested := false } = s := by rw [← hquiet.2]
  refine ⟨fun ht hcells hword => ?arm, fun ht hcells hhalf => ?thumb⟩
  case arm =>
    have hslot := atSelfBranch_arm hself ht
    have htarget : alignPc false (s.regs.pc - 8) = s.regs.pc - 8 := alignPc_sub (ht ▸ haligned) (by decide)
    have hexecuting : executingInstr s = some (.b .al 0xFFFFFE) := by
      rw [executingInstr, if_neg (ht ▸ Bool.false_ne_true), hslot]
      decide
    have hexec : exec (.b .al 0xFFFFFE) { s with flushRequested := false } = .next (writePc (s.regs.pc - 8) s) := by
      have hoffset : -8 = branchOffset 0xFFFFFE := by decide
      rw [hkept, sub_eq_add_neg, hoffset]
      rfl
    have hfetch : (read32 (s.regs.pc - 8) (writePc (s.regs.pc - 8) s)).1 = 0xEAFFFFFE#32 := by
      have hfirst : readCell s (s.regs.pc - 8) = some (k 0) := by simpa using hcells 0 (by decide)
      rw [read32_of_cells (s := writePc (s.regs.pc - 8) s) htarget hfirst (hcells 1 (by decide)) (hcells 2 (by decide))
        (hcells 3 (by decide))]
      exact hword
    obtain ⟨l, d, hend⟩ := finishStep_jump_arm ht htarget (sub_add_cancel _ _) hquiet
    rw [hfetch, ← hslot] at hend
    refine ⟨l, d, (step_of_exec_next hfaulted hprimed hexecuting hnone hexec).trans (congrArg _ hend), ?_⟩
    rw [executingIsSelfBranch, if_neg (ht ▸ Bool.false_ne_true), hslot]
    rfl
  case thumb =>
    have hslot := atSelfBranch_thumb hself ht
    have htarget : alignPc true (s.regs.pc - 4) = s.regs.pc - 4 := alignPc_sub (ht ▸ haligned) (by decide)
    have hexecuting : executingInstr s = some (.tB 0x7FE) := by
      rw [executingInstr, if_pos ht, hslot]
      decide
    have hexec : exec (.tB 0x7FE) { s with flushRequested := false } = .next (writePc (s.regs.pc - 4) s) := by
      have hoffset : -4 = off11Offset 0x7FE := by decide
      rw [hkept, sub_eq_add_neg, hoffset]
      rfl
    have hfetch : (read16 (s.regs.pc - 4) (writePc (s.regs.pc - 4) s)).1.extractLsb' 0 16 = 0xE7FE#16 := by
      have hfirst : readCell s (s.regs.pc - 4) = some (k 0) := by simpa using hcells 0 (by decide)
      rw [read16_of_cells (s := writePc (s.regs.pc - 4) s) htarget hfirst (hcells 1 (by decide))]
      exact hhalf
    obtain ⟨l, d, hend⟩ := finishStep_jump_thumb ht htarget (sub_add_cancel _ _) hquiet
    rw [hfetch, ← hslot] at hend
    refine ⟨l, d, (step_of_exec_next hfaulted hprimed hexecuting hnone hexec).trans (congrArg _ hend), ?_⟩
    rw [executingIsSelfBranch, if_pos ht, hslot]
    rfl

end Sys2Proof.Machine
end

section
/-!
PROOFS. The decoder undoes the encoder (`30_encoding.md`): what the decode index of each format's word is, which category that
index falls in, and the fields read back.
-/

namespace Sys2Proof

/-! ### Fields laid end to end -/

theorem getLsbD_bit (b : Bool) : (bit b).getLsbD 0 = b := by
  cases b <;> rfl

theorem condOfBits_bits (c : Cond) : Cond.ofBits c.bits = c := by
  cases c <;> rfl

theorem shiftKindOfBits_bits (k : ShiftKind) : ShiftKind.ofBits k.bits = k := by
  cases k <;> rfl

/-- A field of words laid end to end is a field of the part it lies in; a whole part is itself. -/
theorem readField :
    (∀ {v w k n : Nat} {x : BitVec v} {y : BitVec w}, w ≤ k → (x ++ y).extractLsb' k n = x.extractLsb' (k - w) n) ∧
    (∀ {v w k n : Nat} {x : BitVec v} {y : BitVec w}, k + n ≤ w → (x ++ y).extractLsb' k n = y.extractLsb' k n) ∧
    (∀ {v w k : Nat} {x : BitVec v} {y : BitVec w}, w ≤ k → (x ++ y).getLsbD k = x.getLsbD (k - w)) ∧
    (∀ {v w k : Nat} {x : BitVec v} {y : BitVec w}, k < w → (x ++ y).getLsbD k = y.getLsbD k) ∧
    (∀ {w : Nat} {x : BitVec w}, x.extractLsb' 0 w = x) ∧
    (∀ b : Bool, (bit b).getLsbD 0 = b) ∧ (∀ c : Cond, Cond.ofBits c.bits = c) ∧
    ∀ k : ShiftKind, ShiftKind.ofBits k.bits = k := by
  refine ⟨BitVec.extractLsb'_append_eq_of_le, BitVec.extractLsb'_append_eq_of_add_le, fun hk => ?_, fun hk => ?_,
    BitVec.extractLsb'_eq_self, getLsbD_bit, condOfBits_bits, shiftKindOfBits_bits⟩
  · rw [BitVec.getLsbD_append, if_neg (Nat.not_lt.mpr hk)]
  · rw [BitVec.getLsbD_append, if_pos hk]

/-! ### Data processing -/

theorem armIndex_encA1 (op : BitVec 4) (c : Cond) (sf : Bool) (rn rd : Reg) (rot : BitVec 4) (imm8 : BitVec 8) :
    armIndex (encA1 op c sf rn rd rot imm8) = 0b001#3 ++ op ++ bit sf ++ imm8.extractLsb' 4 4 := by
  refine BitVec.eq_of_getLsbD_eq fun j hj => ?_
  simp only [armIndex, encA1, BitVec.getLsbD_append, BitVec.getLsbD_extractLsb']
  interval_cases j <;> rfl

theorem armCategory_A1 (op : BitVec 4) (sf : Bool) (x : BitVec 4) (h : op.extractLsb' 2 2 = 0b10#2 → sf = true) :
    armCategory (0b001#3 ++ op ++ bit sf ++ x) = .dataProcessing := by
  revert op sf x
  decide

theorem decodeArm_encA1 (op : BitVec 4) (c : Cond) (sf : Bool) (rn rd : Reg) (rot : BitVec 4) (imm8 : BitVec 8)
    (h : op.extractLsb' 2 2 = 0b10#2 → sf = true) :
    decodeArm (encA1 op c sf rn rd rot imm8) = Machine.dpInstr (DpOp.ofBits op) c sf rn rd (.imm rot imm8) := by
  rw [decodeArm, armIndex_encA1, armCategory_A1 op sf _ h]
  simp (disch := decide) only [decodeDataProcessing, decodeDpImm, encA1, readField, Nat.reduceSub]
  cases DpOp.ofBits op <;> rfl

theorem armIndex_encA2 (op : BitVec 4) (c : Cond) (sf : Bool) (rn rd : Reg) (amount : BitVec 5) (k : ShiftKind) (rm : Reg) :
    armIndex (encA2 op c sf rn rd amount k rm) =
      0b000#3 ++ op ++ bit sf ++ (amount.extractLsb' 0 1 ++ k.bits) ++ 0b0#1 := by
  refine BitVec.eq_of_getLsbD_eq fun j hj => ?_
  simp only [armIndex, encA2, BitVec.getLsbD_append, BitVec.getLsbD_extractLsb']
  interval_cases j <;> rfl

theorem armCategory_A2 (op : BitVec 4) (sf : Bool) (x : BitVec 3) (h : op.extractLsb' 2 2 = 0b10#2 → sf = true) :
    armCategory (0b000#3 ++ op ++ bit sf ++ x ++ 0b0#1) = .dataProcessing := by
  revert op sf x
  decide

theorem decodeArm_encA2 (op : BitVec 4) (c : Cond) (sf : Bool) (rn rd : Reg) (amount : BitVec 5) (k : ShiftKind) (rm : Reg)
    (h : op.extractLsb' 2 2 = 0b10#2 → sf = true) :
    decodeArm (encA2 op c sf rn rd amount k rm) = Machine.dpInstr (DpOp.ofBits op) c sf rn rd (.immShift amount k rm) := by
  rw [decodeArm, armIndex_encA2, armCategory_A2 op sf _ h]
  simp (disch := decide) only [decodeDataProcessing, decodeDpImmShift, encA2, readField, Nat.reduceSub]
  cases DpOp.ofBits op <;> rfl

theorem armIndex_encA3 (op : BitVec 4) (c : Cond) (sf : Bool) (rn rd rs : Reg) (k : ShiftKind) (rm : Reg) :
    armIndex (encA3 op c sf rn rd rs k rm) = 0b000#3 ++ op ++ bit sf ++ 0b0#1 ++ k.bits ++ 0b1#1 := by
  refine BitVec.eq_of_getLsbD_eq fun j hj => ?_
  simp only [armIndex, encA3, BitVec.getLsbD_append, BitVec.getLsbD_extractLsb']
  interval_cases j <;> rfl

theorem armCategory_A3 (op : BitVec 4) (sf : Bool) (x : BitVec 2) (h : op.extractLsb' 2 2 = 0b10#2 → sf = true) :
    armCategory (0b000#3 ++ op ++ bit sf ++ 0b0#1 ++ x ++ 0b1#1) = .dataProcessing := by
  revert op sf x
  decide

theorem decodeArm_encA3 (op : BitVec 4) (c : Cond) (sf : Bool) (rn rd rs : Reg) (k : ShiftKind) (rm : Reg)
    (h : op.extractLsb' 2 2 = 0b10#2 → sf = true) :
    decodeArm (encA3 op c sf rn rd rs k rm) = Machine.dpInstr (DpOp.ofBits op) c sf rn rd (.regShift rs k rm) := by
  rw [decodeArm, armIndex_encA3, armCategory_A3 op sf _ h]
  simp (disch := decide) only [decodeDataProcessing, decodeDpRegShift, encA3, readField, Nat.reduceSub]
  cases DpOp.ofBits op <;> rfl

/-! ### Multiplies and the swap -/

theorem armIndex_encA7 (acc : BitVec 1) (c : Cond) (sf : Bool) (rd rn rs rm : Reg) :
    armIndex (encA7 acc c sf rd rn rs rm) = 0b000000#6 ++ acc ++ bit sf ++ 0b1001#4 := by
  refine BitVec.eq_of_getLsbD_eq fun j hj => ?_
  simp only [armIndex, encA7, BitVec.getLsbD_append, BitVec.getLsbD_extractLsb']
  interval_cases j <;> rfl

theorem armCategory_A7 (acc : BitVec 1) (sf : Bool) :
    armCategory (0b000000#6 ++ acc ++ bit sf ++ 0b1001#4) = .multiply := by
  revert acc sf
  decide

theorem decodeArm_encA7 (acc : Bool) (c : Cond) (sf : Bool) (rd rn rs rm : Reg) :
    decodeArm (encA7 (bit acc) c sf rd rn rs rm) = if acc then .mla c sf rd rn rs rm else .mul c sf rd rs rm := by
  rw [decodeArm, armIndex_encA7, armCategory_A7]
  simp (disch := decide) only [decodeMultiply, encA7, readField, Nat.reduceSub]

theorem armIndex_encA8 (ua : BitVec 2) (c : Cond) (sf : Bool) (rdHi rdLo rs rm : Reg) :
    armIndex (encA8 ua c sf rdHi rdLo rs rm) = 0b00001#5 ++ ua ++ bit sf ++ 0b1001#4 := by
  refine BitVec.eq_of_getLsbD_eq fun j hj => ?_
  simp only [armIndex, encA8, BitVec.getLsbD_append, BitVec.getLsbD_extractLsb']
  interval_cases j <;> rfl

theorem armCategory_A8 (ua : BitVec 2) (sf : Bool) :
    armCategory (0b00001#5 ++ ua ++ bit sf ++ 0b1001#4) = .multiplyLong := by
  revert ua sf
  decide

theorem decodeArm_encA8 (ua : BitVec 2) (c : Cond) (sf : Bool) (rdHi rdLo rs rm : Reg) :
    decodeArm (encA8 ua c sf rdHi rdLo rs rm) =
      Machine.longInstr (ua.getLsbD 1) (ua.getLsbD 0) c sf rdHi rdLo rs rm := by
  rw [decodeArm, armIndex_encA8, armCategory_A8]
  simp (disch := decide) only [decodeMultiplyLong, encA8, readField, Nat.reduceSub]
  cases ua.getLsbD 1 <;> cases ua.getLsbD 0 <;> rfl

theorem armIndex_encA9 (byte : BitVec 1) (c : Cond) (rn rd rm : Reg) :
    armIndex (encA9 byte c rn rd rm) = 0b00010#5 ++ byte ++ 0b00#2 ++ 0b1001#4 := by
  refine BitVec.eq_of_getLsbD_eq fun j hj => ?_
  simp only [armIndex, encA9, BitVec.getLsbD_append, BitVec.getLsbD_extractLsb']
  interval_cases j <;> rfl

theorem armCategory_A9 (byte : BitVec 1) :
    armCategory (0b00010#5 ++ byte ++ 0b00#2 ++ 0b1001#4) = .singleDataSwap := by
  revert byte
  decide

theorem decodeArm_encA9 (byte : Bool) (c : Cond) (rn rd rm : Reg) :
    decodeArm (encA9 (bit byte) c rn rd rm) = if byte then .swpb c rn rd rm else .swp c rn rd rm := by
  rw [decodeArm, armIndex_encA9, armCategory_A9]
  simp (disch := decide) only [decodeSwap, encA9, readField, Nat.reduceSub]

/-! ### Halfword and signed transfers -/

theorem armIndex_encHalfword (load : BitVec 1) (sh : BitVec 2) (c : Cond) (p u i w : Bool) (rn rd hi lo : BitVec 4) :
    armIndex (encHalfword load sh c p u i w rn rd hi lo) =
      0b000#3 ++ (bit p ++ bit u ++ bit i ++ bit w ++ load) ++ 0b1#1 ++ sh ++ 0b1#1 := by
  refine BitVec.eq_of_getLsbD_eq fun j hj => ?_
  simp only [armIndex, encHalfword, BitVec.getLsbD_append, BitVec.getLsbD_extractLsb']
  interval_cases j <;> rfl

theorem armCategory_halfword (x : BitVec 5) (sh : BitVec 2) (h : sh ≠ 0) :
    armCategory (0b000#3 ++ x ++ 0b1#1 ++ sh ++ 0b1#1) = .halfwordDataTransfer := by
  revert x sh
  decide

/-- The offset of the halfword formats: I chooses the immediate (`30_encoding.md` R264). -/
def halfOffsetOf (i : Bool) (hi lo : BitVec 4) : Machine.HalfOffset := if i then .imm hi lo else .reg lo

theorem decodeArm_encHalfword_load (k : Machine.HalfLoad) (sh : BitVec 2) (c : Cond) (p u i w : Bool)
    (rn rd hi lo : BitVec 4)
    (hk : sh = match k with | .unsignedHalf => 0b01#2 | .signedByte => 0b10#2 | .signedHalf => 0b11#2) :
    decodeArm (encHalfword 0b1#1 sh c p u i w rn rd hi lo) =
      Machine.halfLoadInstr k c p u w rn rd (halfOffsetOf i hi lo) := by
  subst hk
  rw [decodeArm, armIndex_encHalfword, armCategory_halfword _ _ (by cases k <;> decide)]
  simp (disch := decide) only [decodeHalfword, encHalfword, readField, Nat.reduceSub]
  cases k <;> cases i <;> rfl

theorem decodeArm_encHalfword_store (c : Cond) (p u i w : Bool) (rn rd hi lo : BitVec 4) :
    decodeArm (encHalfword 0b0#1 0b01#2 c p u i w rn rd hi lo) =
      Machine.halfStoreInstr c p u w rn rd (halfOffsetOf i hi lo) := by
  rw [decodeArm, armIndex_encHalfword, armCategory_halfword _ _ (by decide)]
  simp (disch := decide) only [decodeHalfword, encHalfword, readField, Nat.reduceSub]
  cases i <;> rfl

theorem decodeArm_encHalfword_signedStore (sh : BitVec 2) (c : Cond) (p u i w : Bool) (rn rd hi lo : BitVec 4)
    (hs : sh.getLsbD 1 = true) :
    decodeArm (encHalfword 0b0#1 sh c p u i w rn rd hi lo) =
      .halfwordSignedStore c p u i w rn rd hi (sh.getLsbD 0) lo := by
  have hsh : sh ≠ 0 := by
    rintro rfl
    cases hs
  rw [decodeArm, armIndex_encHalfword, armCategory_halfword _ _ hsh]
  simp (disch := decide) only [decodeHalfword, encHalfword, readField, Nat.reduceSub, hs]
  rfl

/-! ### Status transfers -/

theorem armCategory_mrs (r : Bool) : armCategory (0b00010#5 ++ bit r ++ 0b00#2 ++ 0b0000#4) = .psrTransfer := by
  cases r <;> decide

theorem armCategory_msrReg (r : Bool) : armCategory (0b00010#5 ++ bit r ++ 0b10#2 ++ 0b0000#4) = .psrTransfer := by
  cases r <;> decide

theorem armCategory_msrImm (r : Bool) (x : BitVec 4) :
    armCategory (0b00110#5 ++ bit r ++ 0b10#2 ++ x) = .psrTransfer := by
  revert r x
  decide

theorem decode_encode_mrs (c : Cond) (r : Bool) (rd : Reg) : decode (encode (.mrs c r rd)) = .mrs c r rd := by
  have hindex : armIndex (c.bits ++ 0b00010#5 ++ bit r ++ 0b00#2 ++ 0b1111#4 ++ rd ++ 0x000#12) =
      0b00010#5 ++ bit r ++ 0b00#2 ++ 0b0000#4 := by
    refine BitVec.eq_of_getLsbD_eq fun j hj => ?_
    simp only [armIndex, BitVec.getLsbD_append, BitVec.getLsbD_extractLsb']
    interval_cases j <;> rfl
  rw [encode, decode, decodeArm, hindex, armCategory_mrs]
  simp (disch := decide) only [decodePsrTransfer, readField, Nat.reduceSub]
  rfl

theorem decode_encode_msrReg (c : Cond) (r : Bool) (mask : BitVec 4) (rm : Reg) :
    decode (encode (.msrReg c r mask rm)) = .msrReg c r mask rm := by
  have hindex : armIndex (c.bits ++ 0b00010#5 ++ bit r ++ 0b10#2 ++ mask ++ 0b1111#4 ++ 0x00#8 ++ rm) =
      0b00010#5 ++ bit r ++ 0b10#2 ++ 0b0000#4 := by
    refine BitVec.eq_of_getLsbD_eq fun j hj => ?_
    simp only [armIndex, BitVec.getLsbD_append, BitVec.getLsbD_extractLsb']
    interval_cases j <;> rfl
  rw [encode, decode, decodeArm, hindex, armCategory_msrReg]
  simp (disch := decide) only [decodePsrTransfer, readField, Nat.reduceSub]
  rfl

theorem decode_encode_msrImm (c : Cond) (r : Bool) (mask rot : BitVec 4) (imm8 : BitVec 8) :
    decode (encode (.msrImm c r mask rot imm8)) = .msrImm c r mask rot imm8 := by
  have hindex : armIndex (c.bits ++ 0b00110#5 ++ bit r ++ 0b10#2 ++ mask ++ 0b1111#4 ++ rot ++ imm8) =
      0b00110#5 ++ bit r ++ 0b10#2 ++ imm8.extractLsb' 4 4 := by
    refine BitVec.eq_of_getLsbD_eq fun j hj => ?_
    simp only [armIndex, BitVec.getLsbD_append, BitVec.getLsbD_extractLsb']
    interval_cases j <;> rfl
  rw [encode, decode, decodeArm, hindex, armCategory_msrImm]
  simp (disch := decide) only [decodePsrTransfer, readField, Nat.reduceSub]
  rfl

/-! ### Single and block transfers -/

theorem armIndex_encA13 (byte load : BitVec 1) (c : Cond) (p u w : Bool) (rn rd : Reg) (off : SdtOffset) :
    armIndex (encA13 byte load c p u w rn rd off) =
      0b01#2 ++ off.iBit ++ (bit p ++ bit u ++ byte ++ bit w ++ load) ++ off.bits.extractLsb' 4 4 := by
  refine BitVec.eq_of_getLsbD_eq fun j hj => ?_
  simp only [armIndex, encA13, BitVec.getLsbD_append, BitVec.getLsbD_extractLsb']
  interval_cases j <;> rfl

theorem armCategory_A13_imm (x : BitVec 5) (y : BitVec 4) :
    armCategory (0b01#2 ++ 0b0#1 ++ x ++ y) = .singleDataTransfer := by
  revert x y
  decide

theorem armCategory_A13_reg (x : BitVec 5) (y : BitVec 3) :
    armCategory (0b01#2 ++ 0b1#1 ++ x ++ (y ++ 0b0#1)) = .singleDataTransfer := by
  revert x y
  decide

theorem extract_regOffset (amount : BitVec 5) (k : ShiftKind) (rm : Reg) :
    (SdtOffset.reg amount k rm).bits.extractLsb' 4 4 = (amount.extractLsb' 0 1 ++ k.bits) ++ 0b0#1 := by
  refine BitVec.eq_of_getLsbD_eq fun j hj => ?_
  simp only [SdtOffset.bits, BitVec.getLsbD_append, BitVec.getLsbD_extractLsb']
  interval_cases j <;> rfl

theorem decodeArm_encA13 (byte load : Bool) (c : Cond) (p u w : Bool) (rn rd : Reg) (off : SdtOffset) :
    decodeArm (encA13 (bit byte) (bit load) c p u w rn rd off) = Machine.sdtInstr load byte c p u w rn rd off := by
  cases off with
  | imm offset12 =>
    rw [decodeArm, armIndex_encA13, SdtOffset.iBit, armCategory_A13_imm]
    simp (disch := decide) only [decodeSingleTransfer, decodeSdtOffset, encA13, SdtOffset.iBit, readField, Nat.reduceSub]
    simp only [SdtOffset.bits]
    cases load <;> cases byte <;> cases p <;> cases w <;> rfl
  | reg amount k rm =>
    rw [decodeArm, armIndex_encA13, extract_regOffset, SdtOffset.iBit, armCategory_A13_reg]
    simp (disch := decide) only [decodeSingleTransfer, decodeSdtOffset, encA13, SdtOffset.iBit, readField, Nat.reduceSub]
    simp (disch := decide) only [SdtOffset.bits, readField, Nat.reduceSub]
    cases load <;> cases byte <;> cases p <;> cases w <;> rfl

theorem armIndex_encA15 (pu : BitVec 2) (load : BitVec 1) (c : Cond) (sb w : Bool) (rn : Reg) (list : BitVec 16) :
    armIndex (encA15 pu load c sb w rn list) =
      0b100#3 ++ (pu ++ bit sb ++ bit w ++ load ++ list.extractLsb' 4 4) := by
  refine BitVec.eq_of_getLsbD_eq fun j hj => ?_
  simp only [armIndex, encA15, BitVec.getLsbD_append, BitVec.getLsbD_extractLsb']
  interval_cases j <;> rfl

theorem armCategory_A15 (x : BitVec 9) : armCategory (0b100#3 ++ x) = .blockDataTransfer := by
  revert x
  decide

/-- The addressing mode P and U name (`30_encoding.md` R266). -/
def blockModeOf (p u : Bool) : Machine.BlockMode :=
  if p then (if u then .ib else .db) else (if u then .ia else .da)

theorem decodeArm_encA15 (pu : BitVec 2) (load : Bool) (c : Cond) (sb w : Bool) (rn : Reg) (list : BitVec 16) :
    decodeArm (encA15 pu (bit load) c sb w rn list) =
      if load then Machine.blockLoadInstr (blockModeOf (pu.getLsbD 1) (pu.getLsbD 0)) c sb w rn list
      else Machine.blockStoreInstr (blockModeOf (pu.getLsbD 1) (pu.getLsbD 0)) c sb w rn list := by
  rw [decodeArm, armIndex_encA15, armCategory_A15]
  simp (disch := decide) only [decodeBlockTransfer, encA15, readField, Nat.reduceSub]
  cases pu.getLsbD 1 <;> cases pu.getLsbD 0 <;> cases load <;> rfl

/-! ### Branches, the undefined row and the coprocessor formats -/

theorem decode_encode_bx (c : Cond) (rm : Reg) : decode (encode (.bx c rm)) = .bx c rm := by
  have hindex : armIndex (c.bits ++ 0b00010010#8 ++ 0xFFF#12 ++ 0b0001#4 ++ rm) = 0x121#12 := by
    refine BitVec.eq_of_getLsbD_eq fun j hj => ?_
    simp only [armIndex, BitVec.getLsbD_append, BitVec.getLsbD_extractLsb']
    interval_cases j <;> rfl
  rw [encode, decode, decodeArm, hindex, armCategory, if_pos rfl]
  simp (disch := decide) only [readField, Nat.reduceSub]

theorem armCategory_row8 (x : BitVec 8) : armCategory (0b011#3 ++ x ++ 0b1#1) = .undefinedRow8 := by
  revert x
  decide

theorem decode_encode_undefinedRow8 (c : Cond) (upper : BitVec 20) (lower : BitVec 4) :
    decode (encode (.undefinedRow8 c upper lower)) = .undefinedRow8 c upper lower := by
  have hindex : armIndex (c.bits ++ 0b011#3 ++ upper ++ 0b1#1 ++ lower) =
      0b011#3 ++ (upper.extractLsb' 15 5 ++ upper.extractLsb' 0 3) ++ 0b1#1 := by
    refine BitVec.eq_of_getLsbD_eq fun j hj => ?_
    simp only [armIndex, BitVec.getLsbD_append, BitVec.getLsbD_extractLsb']
    interval_cases j <;> rfl
  rw [encode, decode, decodeArm, hindex, armCategory_row8]
  simp (disch := decide) only [decodeUndefinedRow8, readField, Nat.reduceSub]

theorem armCategory_branch (op : BitVec 4) (x : BitVec 8) (h : op.extractLsb' 1 3 = 0b101#3) :
    armCategory (op ++ x) = .branch := by
  revert op x
  decide

theorem decodeArm_branch (op : BitVec 4) (c : Cond) (imm24 : BitVec 24) (h : op.extractLsb' 1 3 = 0b101#3) :
    decodeArm (c.bits ++ op ++ imm24) = if op.getLsbD 0 then .bl c imm24 else .b c imm24 := by
  have hindex : armIndex (c.bits ++ op ++ imm24) =
      op ++ (imm24.extractLsb' 20 4 ++ imm24.extractLsb' 4 4) := by
    refine BitVec.eq_of_getLsbD_eq fun j hj => ?_
    simp only [armIndex, BitVec.getLsbD_append, BitVec.getLsbD_extractLsb']
    interval_cases j <;> rfl
  rw [decodeArm, hindex, armCategory_branch op _ h]
  simp (disch := decide) only [readField, Nat.reduceSub]

theorem armCategory_A17 (x : BitVec 9) : armCategory (0b110#3 ++ x) = .undefinedRow12 := by
  revert x
  decide

theorem decode_encode_ldcStcUndefined (c : Cond) (p u n w l : Bool) (rn crd cp : BitVec 4) (off : BitVec 8) :
    decode (encode (.ldcStcUndefined c p u n w l rn crd cp off)) = .ldcStcUndefined c p u n w l rn crd cp off := by
  have hindex :
      armIndex (c.bits ++ 0b110#3 ++ bit p ++ bit u ++ bit n ++ bit w ++ bit l ++ rn ++ crd ++ cp ++ off) =
        0b110#3 ++ (bit p ++ bit u ++ bit n ++ bit w ++ bit l ++ off.extractLsb' 4 4) := by
    refine BitVec.eq_of_getLsbD_eq fun j hj => ?_
    simp only [armIndex, BitVec.getLsbD_append, BitVec.getLsbD_extractLsb']
    interval_cases j <;> rfl
  rw [encode, decode, decodeArm, hindex, armCategory_A17]
  simp (disch := decide) only [decodeCoprocTransfer, readField, Nat.reduceSub]

theorem armCategory_A18 (x : BitVec 4) (y : BitVec 3) :
    armCategory (0b1110#4 ++ x ++ y ++ 0b0#1) = .coprocessorDataOperation := by
  revert x y
  decide

theorem decode_encode_cdp (c : Cond) (op1 crn crd cp : BitVec 4) (op2 : BitVec 3) (crm : BitVec 4) :
    decode (encode (.cdp c op1 crn crd cp op2 crm)) = .cdp c op1 crn crd cp op2 crm := by
  have hindex : armIndex (c.bits ++ 0b1110#4 ++ op1 ++ crn ++ crd ++ cp ++ op2 ++ 0b0#1 ++ crm) =
      0b1110#4 ++ op1 ++ op2 ++ 0b0#1 := by
    refine BitVec.eq_of_getLsbD_eq fun j hj => ?_
    simp only [armIndex, BitVec.getLsbD_append, BitVec.getLsbD_extractLsb']
    interval_cases j <;> rfl
  rw [encode, decode, decodeArm, hindex, armCategory_A18]
  simp (disch := decide) only [decodeCoprocOperation, readField, Nat.reduceSub]

theorem armIndex_encA19 (load : BitVec 1) (c : Cond) (op1 : BitVec 3) (crn rd cp : BitVec 4) (op2 : BitVec 3)
    (crm : BitVec 4) :
    armIndex (encA19 load c op1 crn rd cp op2 crm) = 0b1110#4 ++ (op1 ++ load) ++ op2 ++ 0b1#1 := by
  refine BitVec.eq_of_getLsbD_eq fun j hj => ?_
  simp only [armIndex, encA19, BitVec.getLsbD_append, BitVec.getLsbD_extractLsb']
  interval_cases j <;> rfl

theorem armCategory_A19 (x : BitVec 4) (y : BitVec 3) :
    armCategory (0b1110#4 ++ x ++ y ++ 0b1#1) = .coprocessorRegisterTransfer := by
  revert x y
  decide

theorem decodeArm_encA19 (load : Bool) (c : Cond) (op1 : BitVec 3) (crn rd cp : BitVec 4) (op2 : BitVec 3)
    (crm : BitVec 4) :
    decodeArm (encA19 (bit load) c op1 crn rd cp op2 crm) =
      if load then .mrc c op1 crn rd cp op2 crm else .mcr c op1 crn rd cp op2 crm := by
  rw [decodeArm, armIndex_encA19, armCategory_A19]
  simp (disch := decide) only [decodeCoprocRegister, encA19, readField, Nat.reduceSub]

theorem armCategory_swi (x : BitVec 8) : armCategory (0b1111#4 ++ x) = .softwareInterrupt := by
  revert x
  decide

theorem decode_encode_swi (c : Cond) (comment : BitVec 24) : decode (encode (.swi c comment)) = .swi c comment := by
  have hindex : armIndex (c.bits ++ 0b1111#4 ++ comment) =
      0b1111#4 ++ (comment.extractLsb' 20 4 ++ comment.extractLsb' 4 4) := by
    refine BitVec.eq_of_getLsbD_eq fun j hj => ?_
    simp only [armIndex, BitVec.getLsbD_append, BitVec.getLsbD_extractLsb']
    interval_cases j <;> rfl
  rw [encode, decode, decodeArm, hindex, armCategory_swi]
  simp (disch := decide) only [readField, Nat.reduceSub]

end Sys2Proof
end

section
/-!
PROOFS. The decoder undoes the encoder on every well-formed instruction (`30_encoding.md`).
-/

namespace Sys2Proof

/-! ### The Thumb decode index -/

theorem thumbIndex_low (p : BitVec 10) (s d : BitVec 3) : thumbIndex (p ++ s ++ d) = p := by
  simp (disch := decide) only [thumbIndex, readField, Nat.reduceSub]

theorem thumbIndex_byte (p x : BitVec 8) : thumbIndex (p ++ x) = p ++ x.extractLsb' 6 2 := by
  refine BitVec.eq_of_getLsbD_eq fun j hj => ?_
  simp only [thumbIndex, BitVec.getLsbD_append, BitVec.getLsbD_extractLsb']
  interval_cases j <;> rfl

theorem thumbIndex_sword7 (p : BitVec 9) (x : BitVec 7) : thumbIndex (p ++ x) = p ++ x.extractLsb' 6 1 := by
  refine BitVec.eq_of_getLsbD_eq fun j hj => ?_
  simp only [thumbIndex, BitVec.getLsbD_append, BitVec.getLsbD_extractLsb']
  interval_cases j <;> rfl

theorem thumbIndex_off11 (p : BitVec 5) (x : BitVec 11) : thumbIndex (p ++ x) = p ++ x.extractLsb' 6 5 := by
  refine BitVec.eq_of_getLsbD_eq fun j hj => ?_
  simp only [thumbIndex, BitVec.getLsbD_append, BitVec.getLsbD_extractLsb']
  interval_cases j <;> rfl

theorem thumbIndex_payload (x : BitVec 12) : thumbIndex (0b1011#4 ++ x) = 0b1011#4 ++ x.extractLsb' 6 6 := by
  refine BitVec.eq_of_getLsbD_eq fun j hj => ?_
  simp only [thumbIndex, BitVec.getLsbD_append, BitVec.getLsbD_extractLsb']
  interval_cases j <;> rfl

/-! ### The conditions that well-formedness states -/

theorem thumbCategory_condition (c : Cond) (x : BitVec 2) (h : thumbCondOk c = true) :
    thumbCategory (0b1101#4 ++ c.bits ++ x) = .conditionalBranch := by
  have hcode : c.bits ≠ 0b1110#4 ∧ c.bits ≠ 0b1111#4 := by
    revert h
    cases c <;> decide
  generalize c.bits = b at hcode
  revert b x
  decide

theorem thumbCategory_gap (x : BitVec 6) (h4 : x.extractLsb' 2 4 ≠ 0b0000#4) (h2 : x.extractLsb' 3 2 ≠ 0b10#2) :
    thumbCategory (0b1011#4 ++ x) = .undefined := by
  revert x
  decide

/-- A field of a field. -/
theorem extract_extract {w j m k n : Nat} (x : BitVec w) (h : k + n ≤ m) :
    (x.extractLsb' j m).extractLsb' k n = x.extractLsb' (j + k) n := by
  refine BitVec.eq_of_getLsbD_eq fun i hi => ?_
  rw [BitVec.getLsbD_extractLsb', BitVec.getLsbD_extractLsb', BitVec.getLsbD_extractLsb', decide_eq_true hi,
    decide_eq_true (show k + i < m by omega), Bool.true_and, Bool.true_and, Bool.true_and, Nat.add_assoc]

/-- The payload of a gap in the 1011 space belongs to no row but the last (`30_encoding.md` R271). -/
theorem thumbCategory_payload (payload : BitVec 12) (h : gapPayloadOk payload = true) :
    thumbCategory (0b1011#4 ++ payload.extractLsb' 6 6) = .undefined := by
  rw [gapPayloadOk, Bool.and_eq_true, bne_iff_ne, bne_iff_ne] at h
  refine thumbCategory_gap _ ?_ ?_
  · rw [extract_extract payload (by decide)]
    exact h.1
  · rw [extract_extract payload (by decide)]
    exact h.2

/-- Only P = 0 with W = 1 spells a T form (`43_arm_single_transfer.md` R505). -/
theorem sdtInstr_of_formOk {load byte : Bool} {c : Cond} {p u w : Bool} {rn rd : Reg} {off : SdtOffset}
    (h : sdtFormOk p w = true) :
    Machine.sdtInstr load byte c p u w rn rd off =
      if load then (if byte then .ldrb c p u w rn rd off else .ldr c p u w rn rd off)
      else (if byte then .strb c p u w rn rd off else .str c p u w rn rd off) := by
  have hform : (!p && w) = false := by
    revert h
    cases p <;> cases w <;> decide
  cases load <;> cases byte <;> simp only [Machine.sdtInstr, hform] <;> rfl

/-! ### Every instruction -/

/-- Decoding undoes encoding, one case per group of constructors that share a format. -/
theorem decode_encode {i : Instr} (h : i.wellFormed = true) : decode (encode i) = i := by
  cases i with
  | bx => exact decode_encode_bx ..
  | mul c sf rd rs rm => exact decodeArm_encA7 false c sf rd 0#4 rs rm
  | mla c sf rd rn rs rm => exact decodeArm_encA7 true c sf rd rn rs rm
  | umull | umlal | smull | smlal => exact decodeArm_encA8 ..
  | swp c rn rd rm => exact decodeArm_encA9 false c rn rd rm
  | swpb c rn rd rm => exact decodeArm_encA9 true c rn rd rm
  | strhImm | strhReg => exact decodeArm_encHalfword_store ..
  | ldrhImm | ldrhReg => exact decodeArm_encHalfword_load .unsignedHalf _ _ _ _ _ _ _ _ _ _ rfl
  | ldrsbImm | ldrsbReg => exact decodeArm_encHalfword_load .signedByte _ _ _ _ _ _ _ _ _ _ rfl
  | ldrshImm | ldrshReg => exact decodeArm_encHalfword_load .signedHalf _ _ _ _ _ _ _ _ _ _ rfl
  | halfwordSignedStore c p u i w rn rd hi hbit lo =>
    cases hbit <;> exact decodeArm_encHalfword_signedStore _ c p u i w rn rd hi lo rfl
  | mrs => exact decode_encode_mrs ..
  | msrReg => exact decode_encode_msrReg ..
  | msrImm => exact decode_encode_msrImm ..
  | andImm | eorImm | subImm | rsbImm | addImm | adcImm | sbcImm | rscImm | orrImm | movImm | bicImm | mvnImm =>
    exact decodeArm_encA1 _ _ _ _ _ _ _ fun hop => absurd hop (by decide)
  | tstImm | teqImm | cmpImm | cmnImm => exact decodeArm_encA1 _ _ true _ _ _ _ fun _ => rfl
  | andRegImmShift | eorRegImmShift | subRegImmShift | rsbRegImmShift | addRegImmShift | adcRegImmShift |
    sbcRegImmShift | rscRegImmShift | orrRegImmShift | movRegImmShift | bicRegImmShift | mvnRegImmShift =>
    exact decodeArm_encA2 _ _ _ _ _ _ _ _ fun hop => absurd hop (by decide)
  | tstRegImmShift | teqRegImmShift | cmpRegImmShift | cmnRegImmShift =>
    exact decodeArm_encA2 _ _ true _ _ _ _ _ fun _ => rfl
  | andRegRegShift | eorRegRegShift | subRegRegShift | rsbRegRegShift | addRegRegShift | adcRegRegShift |
    sbcRegRegShift | rscRegRegShift | orrRegRegShift | movRegRegShift | bicRegRegShift | mvnRegRegShift =>
    exact decodeArm_encA3 _ _ _ _ _ _ _ _ fun hop => absurd hop (by decide)
  | tstRegRegShift | teqRegRegShift | cmpRegRegShift | cmnRegRegShift =>
    exact decodeArm_encA3 _ _ true _ _ _ _ _ fun _ => rfl
  | undefinedRow8 => exact decode_encode_undefinedRow8 ..
  | strt => exact decodeArm_encA13 false false _ false _ true _ _ _
  | ldrt => exact decodeArm_encA13 false true _ false _ true _ _ _
  | strbt => exact decodeArm_encA13 true false _ false _ true _ _ _
  | ldrbt => exact decodeArm_encA13 true true _ false _ true _ _ _
  | str => exact (decodeArm_encA13 false false ..).trans (sdtInstr_of_formOk h)
  | ldr => exact (decodeArm_encA13 false true ..).trans (sdtInstr_of_formOk h)
  | strb => exact (decodeArm_encA13 true false ..).trans (sdtInstr_of_formOk h)
  | ldrb => exact (decodeArm_encA13 true true ..).trans (sdtInstr_of_formOk h)
  | stmda | stmia | stmdb | stmib => exact decodeArm_encA15 _ false ..
  | ldmda | ldmia | ldmdb | ldmib => exact decodeArm_encA15 _ true ..
  | b | bl => exact decodeArm_branch _ _ _ rfl
  | ldcStcUndefined => exact decode_encode_ldcStcUndefined ..
  | cdp => exact decode_encode_cdp ..
  | mcr => exact decodeArm_encA19 false ..
  | mrc => exact decodeArm_encA19 true ..
  | swi => exact decode_encode_swi ..
  | tAddReg a s d | tSubReg a s d | tAddImm3 a s d | tSubImm3 a s d =>
    rw [encode, decode, decodeThumb, thumbIndex_low, (?category : thumbCategory _ = .addSubtract)]
    case category =>
      clear h
      revert a
      decide
    simp (disch := decide) only [decodeT2, readField, Nat.reduceSub]
    rfl
  | tLslImm a s d | tLsrImm a s d | tAsrImm a s d =>
    rw [encode, decode, decodeThumb, thumbIndex_low, (?category : thumbCategory _ = .moveShiftedRegister)]
    case category =>
      clear h
      revert a
      decide
    simp (disch := decide) only [decodeT1, readField, Nat.reduceSub]
    rfl
  | tMovImm d x | tCmpImm d x | tAddImm8 d x | tSubImm8 d x =>
    rw [encode, decode, decodeThumb, thumbIndex_byte, (?category : thumbCategory _ = .immediate)]
    case category =>
      clear h
      generalize x.extractLsb' 6 2 = y
      revert d y
      decide
    simp (disch := decide) only [decodeT3, readField, Nat.reduceSub]
    rfl
  | tAnd | tEor | tLslReg | tLsrReg | tAsrReg | tAdc | tSbc | tRor | tTst | tNeg | tCmpReg | tCmn | tOrr | tMul |
    tBic | tMvn =>
    rw [encode, decode, decodeThumb, thumbIndex_low, (?category : thumbCategory _ = .aluOperations)]
    case category => decide
    simp (disch := decide) only [decodeT4, readField, Nat.reduceSub]
    rfl
  | tAddHi h1 h2 | tCmpHi h1 h2 | tMovHi h1 h2 | tBx h1 h2 =>
    rw [encode, decode, decodeThumb, thumbIndex_low, (?category : thumbCategory _ = .hiRegisterOperations)]
    case category =>
      clear h
      revert h1 h2
      decide
    simp (disch := decide) only [decodeT5, readField, Nat.reduceSub]
    rfl
  | tLdrPc d x =>
    rw [encode, decode, decodeThumb, thumbIndex_byte, (?category : thumbCategory _ = .pcRelativeLoad)]
    case category =>
      clear h
      generalize x.extractLsb' 6 2 = y
      revert d y
      decide
    simp (disch := decide) only [readField, Nat.reduceSub]
  | tStrReg a | tStrbReg a | tLdrReg a | tLdrbReg a =>
    rw [encode, decode, decodeThumb, thumbIndex_low, (?category : thumbCategory _ = .loadStoreRegisterOffset)]
    case category =>
      clear h
      revert a
      decide
    simp (disch := decide) only [decodeT7T8, readField, Nat.reduceSub]
    rfl
  | tStrhReg a | tLdsb a | tLdrhReg a | tLdsh a =>
    rw [encode, decode, decodeThumb, thumbIndex_low, (?category : thumbCategory _ = .loadStoreSignExtended)]
    case category =>
      clear h
      revert a
      decide
    simp (disch := decide) only [decodeT7T8, readField, Nat.reduceSub]
    rfl
  | tStrImm a | tLdrImm a | tStrbImm a | tLdrbImm a =>
    rw [encode, decode, decodeThumb, thumbIndex_low, (?category : thumbCategory _ = .loadStoreImmediateOffset)]
    case category =>
      clear h
      revert a
      decide
    simp (disch := decide) only [decodeT9, readField, Nat.reduceSub]
    rfl
  | tStrhImm a | tLdrhImm a =>
    rw [encode, decode, decodeThumb, thumbIndex_low, (?category : thumbCategory _ = .loadStoreHalfword)]
    case category =>
      clear h
      revert a
      decide
    simp (disch := decide) only [decodeT10, readField, Nat.reduceSub]
    rfl
  | tStrSp d x | tLdrSp d x =>
    rw [encode, decode, decodeThumb, thumbIndex_byte, (?category : thumbCategory _ = .spRelativeLoadStore)]
    case category =>
      clear h
      generalize x.extractLsb' 6 2 = y
      revert d y
      decide
    simp (disch := decide) only [readField, Nat.reduceSub]
    rfl
  | tAddPc d x | tAddSpRd d x =>
    rw [encode, decode, decodeThumb, thumbIndex_byte, (?category : thumbCategory _ = .loadAddress)]
    case category =>
      clear h
      generalize x.extractLsb' 6 2 = y
      revert d y
      decide
    simp (disch := decide) only [readField, Nat.reduceSub]
    rfl
  | tAddSpImm x | tSubSpImm x =>
    rw [encode, decode, decodeThumb, thumbIndex_sword7, (?category : thumbCategory _ = .addOffsetToSp)]
    case category =>
      clear h
      generalize x.extractLsb' 6 1 = y
      revert y
      decide
    simp (disch := decide) only [readField, Nat.reduceSub]
    rfl
  | tPush r x | tPop r x =>
    rw [encode, decode, decodeThumb, thumbIndex_byte, (?category : thumbCategory _ = .pushPopRegisters)]
    case category =>
      clear h
      generalize x.extractLsb' 6 2 = y
      revert r y
      decide
    simp (disch := decide) only [readField, Nat.reduceSub]
    rfl
  | tStmia b x | tLdmia b x =>
    rw [encode, decode, decodeThumb, thumbIndex_byte, (?category : thumbCategory _ = .multipleLoadStore)]
    case category =>
      clear h
      generalize x.extractLsb' 6 2 = y
      revert b y
      decide
    simp (disch := decide) only [readField, Nat.reduceSub]
    rfl
  | tSwi x =>
    rw [encode, decode, decodeThumb, thumbIndex_byte, (?category : thumbCategory _ = .softwareInterrupt)]
    case category =>
      clear h
      generalize x.extractLsb' 6 2 = y
      revert y
      decide
    simp (disch := decide) only [readField]
  | tUndefinedDe x =>
    rw [encode, decode, decodeThumb, thumbIndex_byte, (?category : thumbCategory _ = .undefined)]
    case category =>
      clear h
      generalize x.extractLsb' 6 2 = y
      revert y
      decide
    simp (disch := decide) only [decodeThumbUndefined, readField, Nat.reduceSub]
    rfl
  | tBCond c x =>
    rw [encode, decode, decodeThumb, thumbIndex_byte, thumbCategory_condition c _ h]
    simp (disch := decide) only [readField, Nat.reduceSub]
  | tB x =>
    rw [encode, decode, decodeThumb, thumbIndex_off11, (?category : thumbCategory _ = .unconditionalBranch)]
    case category =>
      clear h
      generalize x.extractLsb' 6 5 = y
      revert y
      decide
    simp (disch := decide) only [readField]
  | tUndefinedE8 x =>
    rw [encode, decode, decodeThumb, thumbIndex_off11, (?category : thumbCategory _ = .undefined)]
    case category =>
      clear h
      generalize x.extractLsb' 6 5 = y
      revert y
      decide
    simp (disch := decide) only [decodeThumbUndefined, readField, Nat.reduceSub]
    rfl
  | tBlFirst x | tBlSecond x =>
    rw [encode, decode, decodeThumb, thumbIndex_off11, (?category : thumbCategory _ = .longBranchWithLink)]
    case category =>
      clear h
      generalize x.extractLsb' 6 5 = y
      revert y
      decide
    simp (disch := decide) only [readField, Nat.reduceSub]
    rfl
  | tUndefinedB x =>
    rw [encode, decode, decodeThumb, thumbIndex_payload, thumbCategory_payload x h]
    simp (disch := decide) only [decodeThumbUndefined, readField, Nat.reduceSub]
    rfl

/-- Settles O1: each format's word has the index of its category, and every field reads back (`decode_encode`). -/
theorem decodeOfEncode : Obligations.DecodeOfEncode := by
  unfold Obligations.DecodeOfEncode
  intro i h
  exact decode_encode h

end Sys2Proof
end

section
/-!
PROOFS. Every Thumb halfword is the encoding of what it decodes to (`30_encoding.md` R271, R275, R276): its category fixes the
bits that the encoder writes, and the decoder's fields are the others.
-/

namespace Sys2Proof

/-! ### What a category fixes -/

/-- The bits of the index that each category fixes (`30_encoding.md` R271). -/
def ThumbCategory.fixes (c : ThumbCategory) (idx : BitVec 10) : Bool :=
  match c with
  | .addSubtract => idx.extractLsb' 5 5 == 0b00011#5
  | .moveShiftedRegister => idx.extractLsb' 7 3 == 0b000#3 && idx.extractLsb' 5 2 != 0b11#2
  | .immediate => idx.extractLsb' 7 3 == 0b001#3
  | .aluOperations => idx.extractLsb' 4 6 == 0b010000#6
  | .hiRegisterOperations => idx.extractLsb' 4 6 == 0b010001#6
  | .pcRelativeLoad => idx.extractLsb' 5 5 == 0b01001#5
  | .loadStoreRegisterOffset | .loadStoreSignExtended => idx.extractLsb' 6 4 == 0b0101#4
  | .loadStoreImmediateOffset => idx.extractLsb' 7 3 == 0b011#3
  | .loadStoreHalfword => idx.extractLsb' 6 4 == 0b1000#4
  | .spRelativeLoadStore => idx.extractLsb' 6 4 == 0b1001#4
  | .loadAddress => idx.extractLsb' 6 4 == 0b1010#4
  | .addOffsetToSp => idx.extractLsb' 2 8 == 0b10110000#8
  | .pushPopRegisters => idx.extractLsb' 6 4 == 0b1011#4 && idx.extractLsb' 3 2 == 0b10#2
  | .multipleLoadStore => idx.extractLsb' 6 4 == 0b1100#4
  | .softwareInterrupt => idx.extractLsb' 2 8 == 0b11011111#8
  | .conditionalBranch => idx.extractLsb' 6 4 == 0b1101#4
  | .unconditionalBranch => idx.extractLsb' 5 5 == 0b11100#5
  | .longBranchWithLink => idx.extractLsb' 6 4 == 0b1111#4
  | .undefined =>
    match idx.getLsbD 8, idx.getLsbD 7 with
    | true, true => idx.extractLsb' 5 5 == 0b11101#5
    | true, false => idx.extractLsb' 2 8 == 0b11011110#8
    | false, _ => idx.extractLsb' 6 4 == 0b1011#4

theorem thumbCategory_fixes (idx : BitVec 10) : (thumbCategory idx).fixes idx = true := by
  revert idx
  decide

theorem condBits_ofBits (x : BitVec 4) : (Cond.ofBits x).bits = x := by
  revert x
  decide

/-- A fixed field of the index is one of the halfword. -/
theorem field_of_index {h : Half} {k n : Nat} {v : BitVec n} (hk : k + n ≤ 10)
    (hv : ((thumbIndex h).extractLsb' k n == v) = true) : h.extractLsb' (6 + k) n = v := by
  rw [← extract_extract h hk]
  exact eq_of_beq hv

/-! ### The fields laid end to end again -/

/-- A field is its high part and its lowest bit. -/
theorem extract_snoc {w : Nat} (x : BitVec w) (k n : Nat) :
    x.extractLsb' k (n + 1) = x.extractLsb' (k + 1) n ++ bit (x.getLsbD k) := by
  refine BitVec.eq_of_getLsbD_eq fun j hj => ?_
  cases j with
  | zero =>
    rw [BitVec.getLsbD_extractLsb', decide_eq_true hj, BitVec.getLsbD_append, if_pos (by decide), getLsbD_bit]
    rfl
  | succ j =>
    rw [BitVec.getLsbD_extractLsb', decide_eq_true hj, BitVec.getLsbD_append, if_neg (by omega), Nat.add_sub_cancel,
      BitVec.getLsbD_extractLsb', decide_eq_true (by omega), show k + (j + 1) = k + 1 + j by omega]

theorem extract_one {w : Nat} (x : BitVec w) (k : Nat) : x.extractLsb' k 1 = bit (x.getLsbD k) := by
  refine BitVec.eq_of_getLsbD_eq fun j hj => ?_
  obtain rfl : j = 0 := by omega
  rw [BitVec.getLsbD_extractLsb', decide_eq_true hj, getLsbD_bit]
  rfl

/-- A field is its high part and its low part. -/
theorem extract_append {w : Nat} (x : BitVec w) (k n m : Nat) :
    x.extractLsb' (k + m) n ++ x.extractLsb' k m = x.extractLsb' k (n + m) :=
  BitVec.extractLsb'_append_extractLsb'_eq_extractLsb' rfl

/-- The formats that end in two register fields. -/
theorem join_low {h : Half} {p : BitVec 10} (hp : h.extractLsb' 6 10 = p) :
    p ++ h.extractLsb' 3 3 ++ h.extractLsb' 0 3 = h := by
  subst hp
  exact (congrArg (· ++ h.extractLsb' 0 3) (extract_append h 3 10 3)).trans
    ((extract_append h 0 13 3).trans BitVec.extractLsb'_eq_self)

/-- The formats that end in a byte. -/
theorem join_byte {h : Half} {p : BitVec 8} (hp : h.extractLsb' 8 8 = p) : p ++ h.extractLsb' 0 8 = h := by
  subst hp
  exact (extract_append h 0 8 8).trans BitVec.extractLsb'_eq_self

/-- The formats that end in an eleven-bit offset. -/
theorem join_off11 {h : Half} {p : BitVec 5} (hp : h.extractLsb' 11 5 = p) : p ++ h.extractLsb' 0 11 = h := by
  subst hp
  exact (extract_append h 0 5 11).trans BitVec.extractLsb'_eq_self

/-- The formats that end in a register field and a byte. -/
theorem join_rd_byte {h : Half} {p : BitVec 5} (hp : h.extractLsb' 11 5 = p) :
    p ++ h.extractLsb' 8 3 ++ h.extractLsb' 0 8 = h := by
  subst hp
  exact join_byte (extract_append h 8 5 3).symm

/-- The formats that end in seven bits. -/
theorem join_sword7 {h : Half} {p : BitVec 8} (hp : h.extractLsb' 8 8 = p) :
    p ++ bit (h.getLsbD 7) ++ h.extractLsb' 0 7 = h := by
  subst hp
  rw [← extract_snoc h 7 8]
  exact (extract_append h 0 9 7).trans BitVec.extractLsb'_eq_self

/-- The stack transfers: bit 11 stands before the fixed bits 10 and 9. -/
theorem join_pushPop {h : Half} {p : BitVec 4} {q : BitVec 2} (hp : h.extractLsb' 12 4 = p) (hq : h.extractLsb' 9 2 = q) :
    p ++ bit (h.getLsbD 11) ++ q ++ bit (h.getLsbD 8) ++ h.extractLsb' 0 8 = h := by
  subst hp hq
  rw [← extract_snoc h 11 4]
  have hseven : h.extractLsb' 11 5 ++ h.extractLsb' 9 2 = h.extractLsb' 9 7 := extract_append h 9 5 2
  rw [hseven, ← extract_snoc h 8 7]
  exact join_byte rfl

/-- The conditional branches. -/
theorem join_condition {h : Half} {p : BitVec 4} (hp : h.extractLsb' 12 4 = p) :
    p ++ h.extractLsb' 8 4 ++ h.extractLsb' 0 8 = h := by
  subst hp
  exact join_byte (extract_append h 8 4 4).symm

/-- The gaps of the 1011 space. -/
theorem join_payload {h : Half} {p : BitVec 4} (hp : h.extractLsb' 12 4 = p) : p ++ h.extractLsb' 0 12 = h := by
  subst hp
  exact (extract_append h 0 4 12).trans BitVec.extractLsb'_eq_self

/-! ### The formats -/

theorem encode_decodeT2 {h : Half} (hp : h.extractLsb' 11 5 = 0b00011#5) : encode (decodeT2 h) = .thumb h := by
  have hindex : h.extractLsb' 6 10 = 0b00011#5 ++ bit (h.getLsbD 10) ++ bit (h.getLsbD 9) ++ h.extractLsb' 6 3 := by
    rw [← hp, ← extract_snoc h 10 5, ← extract_snoc h 9 6]
    exact (extract_append h 6 7 3).symm
  have hjoin := join_low hindex
  rw [decodeT2]
  revert hjoin
  cases h.getLsbD 10 <;> cases h.getLsbD 9 <;> exact congrArg Encoding.thumb

theorem encode_decodeT1 {h : Half} (hp : h.extractLsb' 13 3 = 0b000#3) (hshift : h.extractLsb' 11 2 ≠ 0b11#2) :
    encode (decodeT1 h) = .thumb h := by
  have hindex : h.extractLsb' 6 10 = 0b000#3 ++ bit (h.getLsbD 12) ++ bit (h.getLsbD 11) ++ h.extractLsb' 6 5 := by
    rw [← hp, ← extract_snoc h 12 3, ← extract_snoc h 11 4]
    exact (extract_append h 6 5 5).symm
  have hjoin := join_low hindex
  have hbits : bit (h.getLsbD 12) ++ bit (h.getLsbD 11) ≠ 0b11#2 := by
    rwa [extract_snoc h 11 1, extract_one h 12] at hshift
  rw [decodeT1]
  revert hjoin hbits
  cases h.getLsbD 12 <;> cases h.getLsbD 11
  case true.true => exact fun _ hbits => absurd rfl hbits
  all_goals exact fun hjoin _ => congrArg Encoding.thumb hjoin

theorem encode_decodeT3 {h : Half} (hp : h.extractLsb' 13 3 = 0b001#3) : encode (decodeT3 h) = .thumb h := by
  have hprefix : h.extractLsb' 11 5 = 0b001#3 ++ bit (h.getLsbD 12) ++ bit (h.getLsbD 11) := by
    rw [← hp, ← extract_snoc h 12 3, ← extract_snoc h 11 4]
  have hjoin := join_rd_byte hprefix
  rw [decodeT3]
  revert hjoin
  cases h.getLsbD 12 <;> cases h.getLsbD 11 <;> exact congrArg Encoding.thumb

theorem index_of_six {h : Half} {p : BitVec 6} (hp : h.extractLsb' 10 6 = p) :
    h.extractLsb' 6 10 =
      p ++ bit (h.getLsbD 9) ++ bit (h.getLsbD 8) ++ bit (h.getLsbD 7) ++ bit (h.getLsbD 6) := by
  rw [← hp, ← extract_snoc h 9 6, ← extract_snoc h 8 7, ← extract_snoc h 7 8, ← extract_snoc h 6 9]

theorem encode_decodeT4 {h : Half} (hp : h.extractLsb' 10 6 = 0b010000#6) : encode (decodeT4 h) = .thumb h := by
  have hjoin := join_low (index_of_six hp)
  rw [decodeT4]
  revert hjoin
  cases h.getLsbD 9 <;> cases h.getLsbD 8 <;> cases h.getLsbD 7 <;> cases h.getLsbD 6 <;>
    exact congrArg Encoding.thumb

theorem encode_decodeT5 {h : Half} (hp : h.extractLsb' 10 6 = 0b010001#6) : encode (decodeT5 h) = .thumb h := by
  have hjoin := join_low (index_of_six hp)
  rw [decodeT5]
  revert hjoin
  cases h.getLsbD 9 <;> cases h.getLsbD 8 <;> exact congrArg Encoding.thumb

theorem encode_decodeT7T8 {h : Half} (hp : h.extractLsb' 12 4 = 0b0101#4) : encode (decodeT7T8 h) = .thumb h := by
  have hindex : h.extractLsb' 6 10 =
      0b0101#4 ++ bit (h.getLsbD 11) ++ bit (h.getLsbD 10) ++ bit (h.getLsbD 9) ++ h.extractLsb' 6 3 := by
    rw [← hp, ← extract_snoc h 11 4, ← extract_snoc h 10 5, ← extract_snoc h 9 6]
    exact (extract_append h 6 7 3).symm
  have hjoin := join_low hindex
  rw [decodeT7T8]
  revert hjoin
  cases h.getLsbD 9 <;> cases h.getLsbD 11 <;> cases h.getLsbD 10 <;> exact congrArg Encoding.thumb

theorem encode_decodeT9 {h : Half} (hp : h.extractLsb' 13 3 = 0b011#3) : encode (decodeT9 h) = .thumb h := by
  have hindex : h.extractLsb' 6 10 = 0b011#3 ++ bit (h.getLsbD 12) ++ bit (h.getLsbD 11) ++ h.extractLsb' 6 5 := by
    rw [← hp, ← extract_snoc h 12 3, ← extract_snoc h 11 4]
    exact (extract_append h 6 5 5).symm
  have hjoin := join_low hindex
  rw [decodeT9]
  revert hjoin
  cases h.getLsbD 12 <;> cases h.getLsbD 11 <;> exact congrArg Encoding.thumb

/-- The prefix of the formats that bit 11 splits. -/
theorem prefix_of_four {h : Half} {p : BitVec 4} (hp : h.extractLsb' 12 4 = p) :
    h.extractLsb' 11 5 = p ++ bit (h.getLsbD 11) := by
  rw [← hp, ← extract_snoc h 11 4]

theorem encode_decodeT10 {h : Half} (hp : h.extractLsb' 12 4 = 0b1000#4) : encode (decodeT10 h) = .thumb h := by
  have hindex : h.extractLsb' 6 10 = 0b1000#4 ++ bit (h.getLsbD 11) ++ h.extractLsb' 6 5 := by
    rw [← prefix_of_four hp]
    exact (extract_append h 6 5 5).symm
  have hjoin := join_low hindex
  rw [decodeT10]
  revert hjoin
  cases h.getLsbD 11 <;> exact congrArg Encoding.thumb

theorem encode_decodeThumbUndefined {h : Half} (hfix : ThumbCategory.undefined.fixes (thumbIndex h) = true) :
    encode (decodeThumbUndefined h) = .thumb h := by
  have hbit (k : Nat) (hk : k < 10) : (thumbIndex h).getLsbD k = h.getLsbD (6 + k) := by
    rw [thumbIndex, BitVec.getLsbD_extractLsb', decide_eq_true hk, Bool.true_and]
  rw [ThumbCategory.fixes, hbit 8 (by decide), hbit 7 (by decide)] at hfix
  rw [decodeThumbUndefined]
  revert hfix
  cases h.getLsbD 14
  case false => exact fun hfix => congrArg Encoding.thumb (join_payload (field_of_index (by decide) hfix))
  case true =>
    cases h.getLsbD 13
    case true => exact fun hfix => congrArg Encoding.thumb (join_off11 (field_of_index (by decide) hfix))
    case false => exact fun hfix => congrArg Encoding.thumb (join_byte (field_of_index (by decide) hfix))

/-! ### Every halfword -/

/-- Encoding undoes decoding, one case per category. -/
theorem encode_decodeThumb (h : Half) : encode (decodeThumb h) = .thumb h := by
  have hfix := thumbCategory_fixes (thumbIndex h)
  rw [decodeThumb]
  cases hcat : thumbCategory (thumbIndex h) <;> rw [hcat] at hfix
  case addSubtract => exact encode_decodeT2 (field_of_index (by decide) hfix)
  case moveShiftedRegister =>
    obtain ⟨hp, hshift⟩ := Bool.and_eq_true_iff.mp hfix
    refine encode_decodeT1 (field_of_index (by decide) hp) ?_
    rw [bne_iff_ne, thumbIndex, extract_extract h (by decide)] at hshift
    exact hshift
  case immediate => exact encode_decodeT3 (field_of_index (by decide) hfix)
  case aluOperations => exact encode_decodeT4 (field_of_index (by decide) hfix)
  case hiRegisterOperations => exact encode_decodeT5 (field_of_index (by decide) hfix)
  case pcRelativeLoad => exact congrArg Encoding.thumb (join_rd_byte (field_of_index (by decide) hfix))
  case loadStoreRegisterOffset => exact encode_decodeT7T8 (field_of_index (by decide) hfix)
  case loadStoreSignExtended => exact encode_decodeT7T8 (field_of_index (by decide) hfix)
  case loadStoreImmediateOffset => exact encode_decodeT9 (field_of_index (by decide) hfix)
  case loadStoreHalfword => exact encode_decodeT10 (field_of_index (by decide) hfix)
  case spRelativeLoadStore =>
    have hjoin := join_rd_byte (prefix_of_four (field_of_index (by decide) hfix))
    revert hjoin
    cases h.getLsbD 11 <;> exact congrArg Encoding.thumb
  case loadAddress =>
    have hjoin := join_rd_byte (prefix_of_four (field_of_index (by decide) hfix))
    revert hjoin
    cases h.getLsbD 11 <;> exact congrArg Encoding.thumb
  case addOffsetToSp =>
    have hjoin := join_sword7 (field_of_index (by decide) hfix)
    revert hjoin
    cases h.getLsbD 7 <;> exact congrArg Encoding.thumb
  case pushPopRegisters =>
    obtain ⟨hp, hmid⟩ := Bool.and_eq_true_iff.mp hfix
    have hjoin := join_pushPop (field_of_index (by decide) hp) (field_of_index (by decide) hmid)
    revert hjoin
    cases h.getLsbD 11 <;> exact congrArg Encoding.thumb
  case multipleLoadStore =>
    have hjoin := join_rd_byte (prefix_of_four (field_of_index (by decide) hfix))
    revert hjoin
    cases h.getLsbD 11 <;> exact congrArg Encoding.thumb
  case softwareInterrupt => exact congrArg Encoding.thumb (join_byte (field_of_index (by decide) hfix))
  case conditionalBranch =>
    have hjoin := join_condition (field_of_index (by decide) hfix)
    rw [encode, condBits_ofBits]
    exact congrArg Encoding.thumb hjoin
  case unconditionalBranch => exact congrArg Encoding.thumb (join_off11 (field_of_index (by decide) hfix))
  case longBranchWithLink =>
    have hjoin := join_off11 (prefix_of_four (field_of_index (by decide) hfix))
    revert hjoin
    cases h.getLsbD 11 <;> exact congrArg Encoding.thumb
  case undefined => exact encode_decodeThumbUndefined hfix

/-- Settles O2: a category fixes what the encoder writes, and the decoder keeps the rest (`encode_decodeThumb`). -/
theorem encodeOfDecodeThumb : Obligations.EncodeOfDecodeThumb := by
  unfold Obligations.EncodeOfDecodeThumb
  exact encode_decodeThumb

/-- Settles O3: the decoder evaluated on each word. -/
theorem exampleWordsDecode : Obligations.ExampleWordsDecode := by
  unfold Obligations.ExampleWordsDecode
  decide

end Sys2Proof
end

section
/-!
PROOFS. The memory at the host's hand: the bus reset, the loads, construction; the storage an address names; and a word that
comes back from where it was stored (`70_reset_and_hazards.md` R950 to R953, `20_memory.md` R150 to R189).
-/

namespace Sys2Proof.Machine

/-! ### Images -/

theorem unlisted_low {k : Nat} (h : k < 0x0E000000) : unlisted k = 0 := if_neg (by omega)

theorem unlisted_saveRam {k : Nat} (h : 0x0E000000 ≤ k) (h' : k < 0x0E010000) : unlisted k = 0xFF := if_pos ⟨h, h'⟩

/-- A byte of an image cut to its array reads back at its offset. -/
theorem read_writeList_take {m : Memory} {base n o : Nat} {bs : List Byte} {b : Byte} (hm : m.wf = true) (ho : o < n)
    (hb : bs[o]? = some b) : (Memory.writeList m base (bs.take n)).read (base + o) = b := by
  have hlength : o < bs.length := (List.getElem?_eq_some_iff.mp hb).1
  have hin : base ≤ base + o ∧ base + o < base + (bs.take n).length := by
    rw [List.length_take]
    omega
  rw [Memory.read_writeList _ _ _ _ hm, if_pos hin, Nat.add_sub_cancel_left, List.getD_eq_getElem?_getD,
    List.getElem?_take_of_lt ho, hb]
  rfl

/-- Outside the bytes of an image the memory reads as before. -/
theorem read_writeList_outside {m : Memory} {base k : Nat} {bs : List Byte} (hm : m.wf = true)
    (h : k < base ∨ base + bs.length ≤ k) : (Memory.writeList m base bs).read k = m.read k := by
  rw [Memory.read_writeList _ _ _ _ hm, if_neg (by omega)]

/-- The I/O array apart, an I/O reset reads as the memory it starts from (`20_memory.md` R171). -/
theorem read_ioReset_outside {cfg : Config} {m : Memory} {k : Nat} (hm : m.wf = true)
    (h : k < 0x04000000 ∨ 0x04000400 ≤ k) : (ioReset cfg m).read k = m.read k := by
  refine read_writeList_outside hm (h.imp_right fun hk => le_trans (Nat.add_le_add_left (List.length_take_le _ _) _) hk)

/-! ### The host's operations -/

/-- The bus reset keeps the two read-only memories (`70_reset_and_hazards.md` R951). -/
theorem read_busReset_outside_io {s : State} {k : Nat} (hs : MemCanonical s) (h : k < 0x04000000 ∨ 0x04000400 ≤ k) :
    (busReset s).mem.read k = if k < 0x4000 ∨ 0x08000000 ≤ k ∧ k < 0x0A000000 then s.mem.read k else unlisted k := by
  have hfilter := Memory.read_filter s.mem (fun a => isBootCell a || isRomCell a) k
  have hkept : (isBootCell k || isRomCell k) = decide (k < 0x4000 ∨ 0x08000000 ≤ k ∧ k < 0x0A000000) := by
    simp [isBootCell, isRomCell]
  rw [busReset, read_ioReset_outside (Memory.wf_filter _ _ hs) h, hfilter, hkept]
  exact if_congr decide_eq_true_iff rfl rfl

theorem read_loadBootImage_rest {s : State} {bytes : List Byte} {k : Nat} (hs : MemCanonical s)
    (h : min bytes.length 0x4000 ≤ k) :
    (loadBootImage bytes s).mem.read k = if k < 0x4000 then unlisted k else s.mem.read k := by
  have hfilter := Memory.read_filter s.mem (fun a => !isBootCell a) k
  have hpast : k < Region.bios.base ∨ Region.bios.base + (bytes.take 0x4000).length ≤ k := by
    rw [List.length_take, Region.base]
    omega
  rw [loadBootImage, read_writeList_outside (Memory.wf_filter _ _ hs) hpast, hfilter, isBootCell]
  by_cases hk : k < 0x4000 <;> simp [hk]

theorem read_loadProgramImage_outside {s : State} {bytes : List Byte} {k : Nat} (hs : MemCanonical s)
    (h : k < 0x08000000 ∨ 0x0A000000 ≤ k) : (loadProgramImage bytes s).mem.read k = s.mem.read k := by
  have hfilter := Memory.read_filter s.mem (fun a => !isRomCell a) k
  have hlength : (bytes.take 0x02000000).length ≤ 0x02000000 := List.length_take_le _ _
  have hpast : k < Region.rom.base ∨ Region.rom.base + (bytes.take 0x02000000).length ≤ k := by
    rw [Region.base]
    omega
  have hkept : (!isRomCell k) = true := by
    simp only [isRomCell, Bool.not_eq_true', Bool.and_eq_false_iff, decide_eq_false_iff_not]
    omega
  rw [loadProgramImage, read_writeList_outside (Memory.wf_filter _ _ hs) hpast, hfilter, hkept, if_pos rfl]

/-- Settles O13: each operation filters out its array and writes its image (`read_busReset_outside_io`,
`read_loadBootImage_rest`, `read_loadProgramImage_outside`, `read_writeList_take`). -/
theorem hostMemoryOperations : Obligations.HostMemoryOperations := by
  unfold Obligations.HostMemoryOperations
  intro s bytes hs
  have hwf (p : Host.Cell → Bool) : Memory.wf (s.mem.filter p) = true := Memory.wf_filter _ _ hs
  refine ⟨⟨⟨_, rfl⟩, Memory.wf_writeList _ _ _ (hwf _), fun k hk => ?boot, fun k hlo hhi => ?work,
      fun o b ho hb => read_writeList_take (hwf _) ho hb, fun k hlo hhi => ?video, fun k hlo hhi => ?rom,
      fun k hlo hhi => ?saveRam⟩,
    ⟨⟨_, rfl⟩, Memory.wf_writeList _ _ _ (hwf _), fun i b hi hb => ?bootByte, fun i hlo hhi => ?bootRest,
      fun k hk => ?pastBoot⟩,
    ⟨_, rfl⟩, Memory.wf_writeList _ _ _ (hwf _), fun i b hi hb => read_writeList_take (hwf _) hi hb,
    fun k => read_loadProgramImage_outside hs⟩
  case boot => rw [read_busReset_outside_io hs (by omega), if_pos (by omega)]
  case work => rw [read_busReset_outside_io hs (by omega), if_neg (by omega), unlisted_low (by omega)]
  case video => rw [read_busReset_outside_io hs (by omega), if_neg (by omega), unlisted_low (by omega)]
  case rom => rw [read_busReset_outside_io hs (by omega), if_pos (by omega)]
  case saveRam => rw [read_busReset_outside_io hs (by omega), if_neg (by omega), unlisted_saveRam hlo hhi]
  case bootByte =>
    have hread := read_writeList_take (base := Region.bios.base) (hwf fun c => !isBootCell c.1) hi hb
    rwa [Region.base, Nat.zero_add] at hread
  case bootRest => rw [read_loadBootImage_rest hs (by omega), if_pos hhi, unlisted_low (by omega)]
  case pastBoot => rw [read_loadBootImage_rest hs (by omega), if_neg (by omega)]

/-- Settles O11: the fields as construction writes them, and the memory an I/O reset of the empty one. -/
theorem constructedState : Obligations.ConstructedState := by
  unfold Obligations.ConstructedState
  intro cfg n z c v s
  have hread {k : Nat} (h : k < 0x04000000 ∨ 0x04000400 ≤ k) : s.mem.read k = unlisted k := read_ioReset_outside rfl h
  refine ⟨rfl, rfl, rfl, rfl, rfl, rfl, rfl, rfl, rfl, rfl, rfl, rfl, rfl, rfl, rfl, rfl, rfl, rfl, rfl, rfl, rfl, rfl,
    fun k hk => ?low, fun k hlo hhi => ?high, fun k hlo hhi => ?saveRam, fun o b ho hb => ?io⟩
  case low => rw [hread (by omega), unlisted_low (by omega)]
  case high => rw [hread (by omega), unlisted_low hhi]
  case saveRam => rw [hread (by omega), unlisted_saveRam hlo hhi]
  case io => exact read_writeList_take rfl ho hb

/-! ### The address map -/

/-- A mask of low ones is a remainder. -/
theorem toNat_and_low (a : Word) (n : Nat) (m : Word) (hm : m.toNat = 2 ^ n - 1) : (a &&& m).toNat = a.toNat % 2 ^ n := by
  rw [BitVec.toNat_and, hm, Nat.and_two_pow_sub_one_eq_mod]

theorem topByte_toNat (a : Word) : (a.extractLsb' 24 8).toNat = a.toNat / 2 ^ 24 := by
  have hlt := a.isLt
  rw [BitVec.extractLsb'_toNat, Nat.shiftRight_eq_div_pow]
  omega

theorem cells_of_backed {s : State} {a : Word} {r : Region} (hr : regionOf a = r) (hbios : r ≠ .bios)
    (h : backed s r (offsetIn r a) = true) :
    readCell s a = some (r.base + offsetIn r a) ∧ writeCell s a = some (r.base + offsetIn r a) := by
  simp only [readCell, writeCell, hr, hbios, h, false_and, if_false, if_true, and_self]

theorem cells_of_unbacked {s : State} {a : Word} {r : Region} (hr : regionOf a = r) (hbios : r ≠ .bios)
    (h : backed s r (offsetIn r a) = false) : readCell s a = none ∧ writeCell s a = none := by
  simp only [readCell, writeCell, hr, hbios, h, false_and, if_false, Bool.false_eq_true, and_self]

/-- Settles O14: the region of each top byte, and its offset by a mask that is a remainder (`toNat_and_low`). -/
theorem addressMap : Obligations.AddressMap := by
  unfold Obligations.AddressMap
  intro s a top array boundary
  have hregion : regionOf a =
      if top = 0x00 then .bios
      else if top = 0x02 then .ewram
      else if top = 0x03 then .iwram
      else if top = 0x04 then .io
      else if top = 0x05 then .palette
      else if top = 0x06 then .vram
      else if top = 0x07 then .oam
      else if 0x08 ≤ top ∧ top ≤ 0x0D then .rom
      else if top = 0x0E ∨ top = 0x0F then .sram
      else .unmapped := by
    rw [regionOf, topByte_toNat]
  have hio : offsetIn .io a = a.toNat % 2 ^ 24 := toNat_and_low a 24 _ rfl
  have hrom : offsetIn .rom a = a.toNat % 0x2000000 := toNat_and_low a 25 _ rfl
  have harray {r : Region} {k : Nat} (hr : regionOf a = r) (hbios : r ≠ .bios) (hb : backed s r (offsetIn r a) = true)
      (hk : offsetIn r a = k) : array (r.base + k) := hk ▸ cells_of_backed hr hbios hb
  have hbios : top = 0x00 → offsetIn .bios a = a.toNat := fun htop => by
    have hlow : offsetIn .bios a = a.toNat % 2 ^ 24 := toNat_and_low a 24 _ rfl
    have hdiv : a.toNat / 2 ^ 24 = 0x00 := htop
    omega
  have hboundary : boundary = biosBoundary s := rfl
  clear_value top
  refine ⟨fun h => ?bios, fun h => ?ewram, fun h => ?iwram, fun h => ?io, fun h => ?palette, fun h => ?vram,
    fun h => ?oam, fun hlo hhi => ?rom, fun h => ?sram, fun h => ?unmapped⟩
  case bios =>
    have ho := hbios h
    subst h
    have hr : regionOf a = .bios := hregion
    refine ⟨by simp [writeCell, hr], ?_⟩
    rw [hboundary]
    simp only [readCell, hr, ho, true_and, backed, decide_eq_true_eq]
    split
    case isTrue hlocked => rw [if_pos (.inr hlocked)]
    case isFalse hopen =>
      split
      case isTrue hlt => rw [if_neg (not_or_intro (by omega) hopen), Region.base, Nat.zero_add]
      case isFalse hge => rw [if_pos (.inl (by omega))]
  case ewram =>
    subst h
    exact harray hregion nofun rfl (toNat_and_low a 18 _ rfl)
  case iwram =>
    subst h
    exact harray hregion nofun rfl (toNat_and_low a 15 _ rfl)
  case io =>
    subst h
    split
    case isTrue hlt => exact harray hregion nofun (decide_eq_true (hio ▸ hlt)) hio
    case isFalse hge => exact cells_of_unbacked hregion nofun (decide_eq_false (hio ▸ hge))
  case palette =>
    subst h
    exact harray hregion nofun rfl (toNat_and_low a 10 _ rfl)
  case vram =>
    subst h
    have hr : regionOf a = .vram := hregion
    refine harray hr nofun rfl ?_
    have hoffset : (a &&& 0x0001FFFF#32).toNat = a.toNat % 0x20000 := toNat_and_low a 17 _ rfl
    simp only [offsetIn, hoffset]
    split <;> split <;> omega
  case oam =>
    subst h
    exact harray hregion nofun rfl (toNat_and_low a 10 _ rfl)
  case rom =>
    have hr : regionOf a = .rom := by
      rw [hregion, if_neg (by omega), if_neg (by omega), if_neg (by omega), if_neg (by omega), if_neg (by omega),
        if_neg (by omega), if_neg (by omega), if_pos ⟨hlo, hhi⟩]
    split
    case isTrue hlt => exact harray hr nofun (decide_eq_true (hrom ▸ hlt)) hrom
    case isFalse hge => exact cells_of_unbacked hr nofun (decide_eq_false (hrom ▸ hge))
  case sram =>
    have hr : regionOf a = .sram := by
      rcases h with rfl | rfl <;> exact hregion
    exact harray hr nofun rfl (toNat_and_low a 16 _ rfl)
  case unmapped =>
    have hr : regionOf a = .unmapped := by
      rw [hregion, if_neg (by omega), if_neg (by omega), if_neg (by omega), if_neg (by omega), if_neg (by omega),
        if_neg (by omega), if_neg (by omega), if_neg (by omega), if_neg (by omega)]
    exact cells_of_unbacked hr nofun rfl

/-! ### A word stored and read back -/

/-- Every window of storage is a multiple of a word long, so it keeps an address's place in a word (`20_memory.md` R156). -/
theorem offsetIn_mod_four (a : Word) {r : Region} (hr : r ≠ .unmapped) : offsetIn r a % 4 = a.toNat % 4 := by
  cases r with
  | unmapped => exact absurd rfl hr
  | vram =>
    have := toNat_and_low a 17 0x0001FFFF#32 rfl
    simp only [offsetIn]
    split <;> omega
  | bios | io => have := toNat_and_low a 24 0x00FFFFFF#32 rfl; simp only [offsetIn]; omega
  | ewram => have := toNat_and_low a 18 0x0003FFFF#32 rfl; simp only [offsetIn]; omega
  | iwram => have := toNat_and_low a 15 0x00007FFF#32 rfl; simp only [offsetIn]; omega
  | palette | oam => have := toNat_and_low a 10 0x000003FF#32 rfl; simp only [offsetIn]; omega
  | rom => have := toNat_and_low a 25 0x01FFFFFF#32 rfl; simp only [offsetIn]; omega
  | sram => have := toNat_and_low a 16 0x0000FFFF#32 rfl; simp only [offsetIn]; omega

theorem base_mod_four (r : Region) : r.base % 4 = 0 := by cases r <;> rfl

theorem writeCell_mod_four {s : State} {a : Word} {k : Nat} (h : writeCell s a = some k) : k % 4 = a.toNat % 4 := by
  obtain ⟨-, hbacked, rfl⟩ : regionOf a ≠ .bios ∧ backed s (regionOf a) (offsetIn (regionOf a) a) = true ∧
      (regionOf a).base + offsetIn (regionOf a) a = k := by
    simpa [writeCell, and_assoc] using h
  have hr : regionOf a ≠ .unmapped := fun hr => by simp [hr, backed] at hbacked
  have hbase := base_mod_four (regionOf a)
  have hoffset := offsetIn_mod_four a hr
  omega

theorem rotateRight_rotateLeft {v : Word} {n : Nat} (h : n < 32) : (v.rotateLeft n).rotateRight n = v := by
  ext i hi
  simp only [BitVec.getElem_rotateRight, BitVec.getElem_rotateLeft, Nat.mod_eq_of_lt h]
  split
  case isTrue => rw [dif_neg (by omega)]; congr 1; omega
  case isFalse => rw [dif_pos (by omega)]; congr 1; omega

/-- The load at an address undoes the rotation of the store there (`20_memory.md` R181, R185). -/
theorem storedWord_rotateRight {s : State} {a v : Word}
    (h : s.config.misalignedStoreRotate = true ∨ a.extractLsb' 0 2 = 0#2) :
    (storedWord a v s).rotateRight (wordSkew a) = v := by
  have hskew : wordSkew a < 32 := by rw [wordSkew_eq]; omega
  unfold storedWord
  split
  case isTrue => exact rotateRight_rotateLeft hskew
  case isFalse hplain =>
    have hzero : wordSkew a = 0 := congrArg (fun b : BitVec 2 => 8 * b.toNat) (h.resolve_left hplain)
    simp [hzero, BitVec.rotateRight_def]

theorem append_bytes_of_word (v : Word) :
    v.extractLsb' 24 8 ++ v.extractLsb' 16 8 ++ v.extractLsb' 8 8 ++ v.extractLsb' 0 8 = v := by
  ext i hi
  simp only [BitVec.getElem_append, BitVec.getElem_extractLsb', ← BitVec.getLsbD_eq_getElem (x := v) hi]
  split_ifs <;> congr 1 <;> omega

/-- The bytes of a word in storage read as that word, turned by the address's place in the word (`20_memory.md` R181). -/
theorem read32_of_storage {s : State} {a : Word} {k0 k1 k2 k3 : Nat}
    (h0 : readCell s (alignWord a) = some k0) (h1 : readCell s (alignWord a + 1) = some k1)
    (h2 : readCell s (alignWord a + 2) = some k2) (h3 : readCell s (alignWord a + 3) = some k3) :
    (read32 a s).1 =
      (s.mem.read k3 ++ s.mem.read k2 ++ s.mem.read k1 ++ s.mem.read k0).rotateRight (wordSkew a) := by
  simp only [read32, readByte_eq, inspectByte, readCell_latch, h0, h1, h2, h3]

/-- A word store whose four bytes have storage writes its bytes there (`20_memory.md` R185). -/
theorem write32_of_storage {s : State} {a v w : Word} {k0 k1 k2 k3 : Nat} (hw : storedWord a v s = w)
    (h0 : writeCell s (alignWord a) = some k0) (h1 : writeCell s (alignWord a + 1) = some k1)
    (h2 : writeCell s (alignWord a + 2) = some k2) (h3 : writeCell s (alignWord a + 3) = some k3) :
    write32 a v s =
      { s with mem := (((s.mem.write k0 (w.extractLsb' 0 8)).write k1 (w.extractLsb' 8 8)).write k2
          (w.extractLsb' 16 8)).write k3 (w.extractLsb' 24 8) } := by
  have hcell (m : Memory) (b : Word) : writeCell { s with mem := m } b = writeCell s b := rfl
  simp only [write32, writeByte, hcell, hw, h0, h1, h2, h3]

/-- Settles O17: the four bytes have four different places in storage (`writeCell_mod_four`), so each reads back, and the
rotations undo each other (`storedWord_rotateRight`). -/
theorem storeThenLoad : Obligations.StoreThenLoad := by
  unfold Obligations.StoreThenLoad
  intro s a v hs hrotates hcells
  obtain ⟨k0, hw0, hr0⟩ := hcells 0 (by decide)
  obtain ⟨k1, hw1, hr1⟩ := hcells 1 (by decide)
  obtain ⟨k2, hw2, hr2⟩ := hcells 2 (by decide)
  obtain ⟨k3, hw3, hr3⟩ := hcells 3 (by decide)
  rw [← alignWord_eq, BitVec.add_zero] at hw0 hr0
  rw [← alignWord_eq] at hw1 hw2 hw3 hr1 hr2 hr3
  have hbase := alignWord_toNat a
  have hk0 := writeCell_mod_four hw0
  have hk1 := writeCell_mod_four hw1
  have hk2 := writeCell_mod_four hw2
  have hk3 := writeCell_mod_four hw3
  simp only [BitVec.toNat_add, BitVec.toNat_ofNat] at hk1 hk2 hk3
  have hread (m : Memory) := read32_of_storage (s := { s with mem := m }) hr0 hr1 hr2 hr3
  rw [write32_of_storage rfl hw0 hw1 hw2 hw3, hread]
  have hwf0 := Memory.wf_write s.mem k0 ((storedWord a v s).extractLsb' 0 8) hs
  have hwf1 := Memory.wf_write _ k1 ((storedWord a v s).extractLsb' 8 8) hwf0
  have hwf2 := Memory.wf_write _ k2 ((storedWord a v s).extractLsb' 16 8) hwf1
  simp only [Memory.read_write_self _ _ _ hs, Memory.read_write_self _ _ _ hwf0, Memory.read_write_self _ _ _ hwf1,
    Memory.read_write_self _ _ _ hwf2, Memory.read_write_of_ne _ _ _ (show k0 ≠ k1 by omega),
    Memory.read_write_of_ne _ _ _ (show k0 ≠ k2 by omega), Memory.read_write_of_ne _ _ _ (show k0 ≠ k3 by omega),
    Memory.read_write_of_ne _ _ _ (show k1 ≠ k2 by omega), Memory.read_write_of_ne _ _ _ (show k1 ≠ k3 by omega),
    Memory.read_write_of_ne _ _ _ (show k2 ≠ k3 by omega)]
  rw [append_bytes_of_word, storedWord_rotateRight hrotates]

end Sys2Proof.Machine
end


section
/-!
PROOFS. What a handler of one register's transfer does past its tests, and the fault of the first test that stops it: the
register-specified shift, the single transfers, the status words, and the halfwords (`42_arm_data_processing.md` R453,
`43_arm_single_transfer.md` R504, `45_arm_psr_transfer.md` R601 to R605, `47_arm_swap_halfword.md` R711 to R716).
-/

namespace Sys2Proof.Machine

/-! ### The tests before an instruction -/

/-- Settles O24: every form runs the skeleton on fields that name R15 where its own do (`exec_dpInstr`), and the skeleton tests
that first. -/
theorem registerShiftOfR15Faults : Obligations.RegisterShiftOfR15Faults := by
  unfold Obligations.RegisterShiftOfR15Faults
  intro op c sf rn rd rs rm k s hc h15
  obtain ⟨sf', rd', rn', hexec, -, -, hnames⟩ :=
    exec_dpInstr (op := op) (sf := sf) (rn := rn) (rd := rd) (o := .regShift rs k rm) hc
  have hstop : regShiftNamesR15 (.regShift rs k rm) rd rn = true := by
    simp only [regShiftNamesR15, Bool.or_eq_true, beq_iff_eq]
    tauto
  rw [hexec, dataProcessing, hnames, hstop, failIf_true, except_error_bind, answer_error]

/-- The UNPREDICTABLE cases in their order, the first that holds winning (`43_arm_single_transfer.md` R504). -/
theorem sdtCheck_eq (byte p w : Bool) (rn rd : Reg) (off : SdtOffset) (s : State) :
    sdtCheck byte p w rn rd off s =
      if sdtOffsetIsR15 off = true then .error (stop (.unpredictable .sdtOffsetR15) s)
      else if writesBack p w = true ∧ rn = 15 then .error (stop (.unpredictable .sdtWritebackR15) s)
      else if writesBack p w = true ∧ rn = rd then .error (stop (.unpredictable .sdtWritebackRnIsRd) s)
      else if byte = true ∧ rd = 15 then .error (stop (.unpredictable .sdtByteR15) s)
      else .ok () := by
  simp only [sdtCheck, failIf_bind, Bool.and_eq_true, beq_iff_eq]
  simp only [failIf, Bool.and_eq_true, beq_iff_eq]

/-- Every single transfer makes the tests first, and faults with the one that stops it (`43_arm_single_transfer.md` R504). -/
theorem exec_of_sdtCheck_error {load byte : Bool} {c : Cond} {p u w : Bool} {rn rd : Reg} {off : SdtOffset} {s : State}
    {e : Fault} (hc : Cond.passed c s.cpsr = true) (he : sdtCheck byte p w rn rd off s = .error e) :
    exec (sdtInstr load byte c p u w rn rd off) s = .fault e := by
  rw [exec_sdtInstr hc]
  cases load
  · rw [if_neg Bool.false_ne_true, singleStore, he, except_error_bind, answer_error]
  · rw [if_pos rfl, singleLoad, he, except_error_bind, answer_error]

/-- Settles O27: every form answers the fault of the tests (`exec_of_sdtCheck_error`), and each clause is one branch of their
chain, the branches before it shut by the clause's other hypotheses (`sdtCheck_eq`). -/
theorem singleTransferFaults : Obligations.SingleTransferFaults := by
  unfold Obligations.SingleTransferFaults
  intro load byte c p u w rn rd off s wb faults hc
  have hfaults {k : UnpredictableCase} (h : sdtCheck byte p w rn rd off s = .error (stop (.unpredictable k) s)) : faults k :=
    exec_of_sdtCheck_error hc h
  have hoffset (h : sdtOffsetIsR15 off = false) : ¬sdtOffsetIsR15 off = true := Bool.eq_false_iff.mp h
  refine ⟨fun hoff => hfaults ?offsetR15, fun hoff hwb hn => hfaults ?writebackR15,
    fun hoff hwb hn hnd => hfaults ?writebackRnIsRd, fun hoff hwb hbyte hd => hfaults ?byteR15⟩
  case offsetR15 => rw [sdtCheck_eq, if_pos hoff]
  case writebackR15 => rw [sdtCheck_eq, if_neg (hoffset hoff), if_pos ⟨hwb, hn⟩]
  case writebackRnIsRd => rw [sdtCheck_eq, if_neg (hoffset hoff), if_neg fun h => hn h.2, if_pos ⟨hwb, hnd⟩]
  case byteR15 =>
    rw [sdtCheck_eq, if_neg (hoffset hoff), if_neg fun h => (hwb h.1).1 h.2, if_neg fun h => (hwb h.1).2 h.2,
      if_pos ⟨hbyte, hd⟩]

/-! ### The status words -/

/-- Settles O30: the instruction is its test and the write of Rd. -/
theorem mrsReadsStatus : Obligations.MrsReadsStatus := by
  unfold Obligations.MrsReadsStatus
  intro c r rd s cd hc hd
  have hexec : exec (.mrs c r rd) s = answer (moveFromPsr r rd s) := whenPassed_of_passed hc _
  rw [hexec, moveFromPsr]
  refine ⟨fun h15 => ?_, fun h15 => ?_⟩
  · rw [beq_false_of_ne h15, failIf_false, except_ok_bind, writeReg_of_names _ h15 hd, answer_ok]
  · rw [h15, beq_self_eq_true, failIf_true, except_error_bind, answer_error]

/-- The word a mode saves its status in, by the mode's code (`10_state.md` R63, R66). -/
theorem setSpsr_eq (p : Psr) (s : State) :
    setSpsr p s = { s with
      spsr :=
        if s.cpsr.mode = 0x11 then { s.spsr with fiq := p }
        else if s.cpsr.mode = 0x12 then { s.spsr with irq := p }
        else if s.cpsr.mode = 0x13 then { s.spsr with svc := p }
        else if s.cpsr.mode = 0x17 then { s.spsr with abt := p }
        else if s.cpsr.mode = 0x1B then { s.spsr with und := p }
        else { s.spsr with dummy := p } } := by
  by_cases huser : s.cpsr.mode = 0x10
  · simp [setSpsr, bankOf, huser]
  · simp only [setSpsr, bankOf, if_neg huser]
    split_ifs <;> rfl

/-- Settles O32: both forms write the saved word (`exec_msr_of_operand`), bit by bit the operand's where the mask names its
byte (`getLsbD_maskedPsr`, `getLsbD_byteMask`), and R15 stops the register form. -/
theorem msrSpsr : Obligations.MsrSpsr := by
  unfold Obligations.MsrSpsr
  intro c mask i v s hc hi
  refine ⟨⟨maskedPsr (getSpsr s) v (byteMask mask), fun j hj => ?bits, ?write⟩, fun r => whenPassed_of_passed hc _⟩
  case bits => rw [getLsbD_maskedPsr _ _ _ hj, getLsbD_byteMask mask hj]
  case write =>
    rw [exec_msr_of_operand hc hi, ← setSpsr_eq]
    rfl

/-! ### Halfwords -/

/-- A transfer that is none of the UNPREDICTABLE cases passes their tests (`47_arm_swap_halfword.md` R711). -/
theorem halfCheck_of_predictable {p w : Bool} {rn rd : Reg} {off : HalfOffset} (s : State) (hpw : p = true ∨ w = false)
    (hd : rd ≠ 15) (hoff : halfOffsetIsR15 off = false) (hwb : writesBack p w = true → rn ≠ 15 ∧ rn ≠ rd) :
    halfCheck p w rn rd off s = .ok () := by
  have hpost : ¬(p = false ∧ w = true) := by simpa [Decidable.imp_iff_not_or] using hpw
  rw [halfCheck_eq, if_neg hpost, if_neg hd, if_neg (Bool.eq_false_iff.mp hoff), if_neg fun h => (hwb h.1).1 h.2,
    if_neg fun h => (hwb h.1).2 h.2]

/-- What each kind loads: the halfword, the signed byte, or at an even address the signed halfword
(`47_arm_swap_halfword.md` R713, R715, R716). -/
theorem halfLoad_eq (k : HalfLoad) (a : Word) (s : State) :
    halfLoad k a s =
      let signedByte := (((read8 a s).1.extractLsb' 0 8).signExtend 32, (read8 a s).2)
      match k with
      | .unsignedHalf => read16 a s
      | .signedByte => signedByte
      | .signedHalf =>
        if a.toNat % 2 = 0 then (((read16 a s).1.extractLsb' 0 16).signExtend 32, (read16 a s).2) else signedByte := by
  cases k with
  | unsignedHalf => rfl
  | signedByte => rfl
  | signedHalf =>
    have hodd : a.getLsbD 0 = true ↔ ¬a.toNat % 2 = 0 := by simp [BitVec.getLsbD, Nat.testBit_zero]
    simp only [halfLoad, hodd, ite_not]

theorem halfLoad_regs_cpsr (k : HalfLoad) (a : Word) (s : State) :
    (halfLoad k a s).2.regs = s.regs ∧ (halfLoad k a s).2.cpsr = s.cpsr := (halfLoad_onlyLatch k a s).regs_cpsr

/-- Settles O36: past the tests a load is the access, the write-back and the write of Rd, in that order. -/
theorem halfwordLoad_everyForm : Obligations.HalfwordLoad := by
  unfold Obligations.HalfwordLoad
  intro k c p u w rn rd off s cn cd x wb base addr signedByte data hc hpw hd15 hwb hn hd hx
  obtain ⟨hoffset, hoff⟩ := halfOffset_of_is hx
  have hdata : halfLoad k addr s = data := halfLoad_eq k addr s
  have haccess : data.2.regs = s.regs ∧ data.2.cpsr = s.cpsr := hdata ▸ halfLoad_regs_cpsr k addr s
  have hback := writeBack_after_access (wb := wb) (movedBase u base x) hn (fun h => (hwb h).1) haccess
  have hd' : Names { data.2 with regs := if wb then s.regs.write cn (movedBase u base x) else s.regs } rd cd :=
    hd.congr (congrArg Psr.mode haccess.2)
  have hload : halfwordLoad k p u w rn rd off s =
      (writeBack wb rn (movedBase u base x) (halfLoad k addr s).2 >>= writeReg rd (halfLoad k addr s).1) := by
    rw [halfwordLoad, halfCheck_of_predictable s hpw hd15 hoff hwb, hoffset, readReg_of_names hn]
    rfl
  rw [exec_halfLoadInstr hc, hload, hdata, hback, except_ok_bind, writeReg_of_names _ hd15 hd', answer_ok]

/-- Settles O37: past the tests a store is the access and then the write-back. -/
theorem halfwordStore_everyForm : Obligations.HalfwordStore := by
  unfold Obligations.HalfwordStore
  intro c p u w rn rd off s cn cd x wb base addr hc hpw hd15 hwb hn hd hx
  obtain ⟨hoffset, hoff⟩ := halfOffset_of_is hx
  have hback := writeBack_after_access (wb := wb) (movedBase u base x) hn (fun h => (hwb h).1)
    (write16_onlyStores addr (s.regs.read cd) s).regs_cpsr
  have hstore : halfwordStore p u w rn rd off s =
      writeBack wb rn (movedBase u base x) (write16 addr (s.regs.read cd) s) := by
    rw [halfwordStore, halfCheck_of_predictable s hpw hd15 hoff hwb, hoffset, readReg_of_names hn, readReg_of_names hd]
    rfl
  rw [exec_halfStoreInstr hc, hstore, hback, answer_ok]

end Sys2Proof.Machine
end


section
/-!
PROOFS. ARM block transfer (`48_arm_block_coproc_swi.md` R750 to R758): the tests and their order, the listed registers with
and without R15, and the two skeletons past their tests.
-/

namespace Sys2Proof.Machine

/-! ### The tests -/

/-- The common tests in their order, the first that holds winning (`48_arm_block_coproc_swi.md` R753). -/
theorem blockCheck_eq (userBank w : Bool) (rn : Reg) (list : BitVec 16) (s : State) :
    blockCheck userBank w rn list s =
      if rn = 15 then .error (stop (.unpredictable .blockBaseR15) s)
      else if list = 0 then .error (stop (.unpredictable .emptyRegisterList) s)
      else if userBank = true ∧ w = true then .error (stop (.unpredictable .userBankWriteback) s)
      else if userBank = true ∧ hasSpsr s.cpsr.mode = false then .error (stop (.unpredictable .userBankFromUserMode) s)
      else .ok () := by
  simp only [blockCheck, failIf_bind, Bool.and_eq_true, beq_iff_eq]
  simp only [failIf, Bool.and_eq_true, Bool.not_eq_true']

theorem blockCheck_of_predictable {userBank w : Bool} {rn : Reg} {list : BitVec 16} {s : State} (hn : rn ≠ 15)
    (hlist : list ≠ 0) (hbank : userBank = true → hasSpsr s.cpsr.mode = true ∧ w = false) :
    blockCheck userBank w rn list s = .ok () := by
  rw [blockCheck_eq, if_neg hn, if_neg hlist, if_neg fun h => absurd (h.2.symm.trans (hbank h.1).2) (by decide),
    if_neg fun h => absurd (h.2.symm.trans (hbank h.1).1) (by decide)]

/-- The user bank is transferred unless the status word is restored (`48_arm_block_coproc_swi.md` R753). -/
theorem userBank_eq (sb pc : Bool) : (sb && !(sb && pc)) = (sb && !pc) := by cases sb <;> rfl

section
variable {load : Bool} {m : BlockMode} {c : Cond} {sb w : Bool} {rn : Reg} {list : BitVec 16} {s : State}

/-- Both block transfers make the common tests first (`48_arm_block_coproc_swi.md` R753). -/
theorem exec_of_blockCheck_error {e : Fault} (hc : Cond.passed c s.cpsr = true)
    (he : blockCheck (sb && !(load && list.getLsbD 15)) w rn list s = .error e) :
    exec (if load then blockLoadInstr m c sb w rn list else blockStoreInstr m c sb w rn list) s = .fault e := by
  cases load with
  | true =>
    rw [if_pos rfl, exec_blockLoadInstr hc, blockLoad, userBank_eq, ← Bool.true_and (list.getLsbD 15), he,
      except_error_bind, answer_error]
  | false =>
    have he' : blockCheck sb w rn list s = .error e := by rwa [Bool.false_and, Bool.not_false, Bool.and_true] at he
    rw [if_neg Bool.false_ne_true, exec_blockStoreInstr hc, blockStore, he', except_error_bind, answer_error]

end

/-- Settles O41: both transfers answer the fault of the common tests (`exec_of_blockCheck_error`), each of the first four
clauses one branch of their chain (`blockCheck_eq`). Past them comes each transfer's own test of a listed base. -/
theorem blockFaults : Obligations.BlockFaults := by
  unfold Obligations.BlockFaults
  intro load m c sb w rn list s hc i userBank faults
  have hfaults {k : UnpredictableCase} (h : blockCheck userBank w rn list s = .error (stop (.unpredictable k) s)) :
      faults k := exec_of_blockCheck_error hc h
  have hpass (hn : rn ≠ 15) (hbank : userBank = false) (hlisted : list.getLsbD rn.toNat = true) :
      blockCheck userBank w rn list s = .ok () := by
    refine blockCheck_of_predictable hn ?_ fun h => absurd (hbank.symm.trans h) Bool.false_ne_true
    rintro rfl
    exact absurd (BitVec.getLsbD_zero.symm.trans hlisted) Bool.false_ne_true
  refine ⟨fun hn => hfaults ?baseR15, fun hn hlist => hfaults ?empty, fun hn hlist hbank hw => hfaults ?writeback,
    fun hn hlist hbank hw hspsr => hfaults ?fromUserMode, fun hn hbank hload hw hlisted => ?loadedBase,
    fun hn hbank hload hw hlisted hfirst => ?baseNotFirst⟩
  case baseR15 => rw [blockCheck_eq, if_pos hn]
  case empty => rw [blockCheck_eq, if_neg hn, if_pos hlist]
  case writeback => rw [blockCheck_eq, if_neg hn, if_neg hlist, if_pos ⟨hbank, hw⟩]
  case fromUserMode =>
    rw [blockCheck_eq, if_neg hn, if_neg hlist, if_neg fun h => absurd (hw.symm.trans h.2) Bool.false_ne_true,
      if_pos ⟨hbank, hspsr⟩]
  case loadedBase =>
    subst hload hw
    have hcheck : blockCheck (sb && !(sb && list.getLsbD 15)) true rn list s = .ok () :=
      (userBank_eq sb _).symm ▸ hpass hn hbank hlisted
    have hexec : exec i s = answer (blockLoad m sb true rn list s) := exec_blockLoadInstr hc
    show exec i s = _
    rw [hexec, blockLoad, hcheck, except_ok_bind, hlisted, Bool.true_and, failIf_true, except_error_bind, answer_error]
  case baseNotFirst =>
    subst hload hw
    have hcheck : blockCheck sb true rn list s = .ok () := by
      have h := hpass hn hbank hlisted
      rwa [show userBank = sb from Bool.and_true sb] at h
    have hexec : exec i s = answer (blockStore m sb true rn list s) := exec_blockStoreInstr hc
    show exec i s = _
    rw [hexec, blockStore, hcheck, except_ok_bind, hlisted, bne_iff_ne.mpr hfirst, Bool.true_and, Bool.true_and,
      failIf_true, except_error_bind, answer_error]

/-! ### The listed registers -/

theorem blockStart_eq (m : BlockMode) (base : Word) (regs : List Reg) :
    blockStart m base (blockBytes regs) = firstAddress m base regs.length := by cases m <;> rfl

theorem blockNewBase_eq (m : BlockMode) (base : Word) (regs : List Reg) :
    blockNewBase m base (blockBytes regs) = finalBase m base regs.length := by cases m <;> rfl

/-- The registers from R0 to R14 that a list names are the ones of its first fifteen bits. -/
theorem regList_without_pc (list : BitVec 16) :
    regList (list &&& 0x7FFF#16) = (regList list).filter (fun i => i != 15) := by
  rw [regList, regList, List.filter_filter]
  refine List.filter_congr fun i _ => ?_
  have hmask : (0x7FFF#16).getLsbD i.toNat = (i != 15) := by revert i; decide
  rw [BitVec.getLsbD_and, hmask, Bool.and_comm]

/-- R15 comes last where it is named. -/
theorem regList_eq_append_pc (list : BitVec 16) :
    regList list = (regList list).filter (fun i => i != 15) ++ (if list.getLsbD 15 then [15] else []) := by
  have hall : regList list =
      ([0, 1, 2, 3, 4, 5, 6, 7, 8, 9, 10, 11, 12, 13, 14] : List Reg).filter (fun i => list.getLsbD i.toNat) ++
        [15].filter (fun i : Reg => list.getLsbD i.toNat) := by rw [← List.filter_append]; rfl
  have hpc : [15].filter (fun i : Reg => list.getLsbD i.toNat) = if list.getLsbD 15 then [15] else [] :=
    List.filter_singleton.trans (Bool.cond_eq_ite _ _ _)
  have hbelow : ∀ i ∈ ([0, 1, 2, 3, 4, 5, 6, 7, 8, 9, 10, 11, 12, 13, 14] : List Reg), (i != 15) = true := by decide
  have hkept := List.filter_eq_self.mpr fun i hi => hbelow i (List.mem_of_mem_filter (p := fun i => list.getLsbD i.toNat) hi)
  rw [hall, hpc, List.filter_append, hkept]
  cases list.getLsbD 15 <;> simp

/-! ### STM -/

/-- Settles O40: past the tests the store loop lays down the values (`storeRegs_of_values`), and the base moves. -/
theorem blockStore_everyMode : Obligations.BlockStore := by
  unfold Obligations.BlockStore
  intro m c sb w rn list s cn vs k base bank hc hn15 hlist hbank hfirst hn hvs
  have htest : (w && list.getLsbD rn.toNat && (regList list).head? != some rn) = false := by
    simpa using hfirst
  have hstored : List.Forall₂ (fun i v => storedReg sb i s = .ok v) (regList list) vs := by
    refine hvs.imp fun i v hv => storedReg_eq_ok.mpr ?_
    rw [storedPc_eq]
    split at hv
    case isTrue h15 => exact .inl ⟨h15, hv⟩
    case isFalse h15 => exact .inr ⟨h15, hv⟩
  have hstore : blockStore m sb w rn list s =
      (storeRegs sb (regList list) (firstAddress m base k) s >>= writeBack w rn (finalBase m base k)) := by
    rw [blockStore, blockCheck_of_predictable hn15 hlist hbank, except_ok_bind, htest, failIf_false, except_ok_bind,
      readReg_of_names hn, except_ok_bind, ← blockStart_eq, ← blockNewBase_eq]
  rw [exec_blockStoreInstr hc, hstore, storeRegs_of_values _ hstored, except_ok_bind,
    writeBack_after_access _ hn (fun _ => hn15) (storeWords_regs_cpsr vs _ s), answer_ok]

/-! ### LDM -/

/-- A write-back moves the base in the registers as the loop left them. -/
theorem writeBack_withRegs {w : Bool} {rn : Reg} {cn : RegCell} {s : State} (v : Word) (b : RegBank) (hn : Names s rn cn)
    (h15 : rn ≠ 15) :
    writeBack w rn v { s with regs := b } = .ok { s with regs := if w then b.write cn v else b } :=
  writeBack_of_names v (hn.congr rfl) fun _ => h15

/-- The registers below R15 that a list names, in rising order. -/
def listedBelowPc (list : BitVec 16) : List Reg := (regList list).filter fun i => i != 15

theorem length_regList (list : BitVec 16) :
    (regList list).length = (listedBelowPc list).length + (list.getLsbD 15).toNat := by
  conv_lhs => rw [regList_eq_append_pc, List.length_append]
  cases list.getLsbD 15 <;> rfl

section
variable {m : BlockMode} {sb w : Bool} {rn : Reg} {list : BitVec 16} {s : State} {cn : RegCell} {cs : List RegCell}

/-- The load loop over the listed registers below R15 (`48_arm_block_coproc_swi.md` R753, R758). -/
theorem loadRegs_listedBelowPc (a : Word)
    (hcs : List.Forall₂ (fun (i : Reg) (cell : RegCell) =>
      resolve (if sb && !list.getLsbD 15 then 0x10 else s.cpsr.mode) i.toNat = .ok cell) (listedBelowPc list) cs) :
    let n := (listedBelowPc list).length
    let l := loadWords n a s
    loadRegs (sb && !list.getLsbD 15) (listedBelowPc list) a s =
      .ok (a + BitVec.ofNat 32 (4 * n), { l.2 with regs := writeAll cs l.1 s.regs }) :=
  loadRegs_of_cells a ((List.forall₂_and_left _ _).mpr ⟨fun i hi => by simpa using (List.mem_filter.mp hi).2, hcs⟩)

variable (hn15 : rn ≠ 15) (hlist : list ≠ 0)
  (hbank : sb = true → list.getLsbD 15 = false → hasSpsr s.cpsr.mode = true ∧ w = false)
  (hbase : w = true → list.getLsbD rn.toNat = false) (hn : Names s rn cn)
  (hcs : List.Forall₂ (fun (i : Reg) (cell : RegCell) =>
    resolve (if sb && !list.getLsbD 15 then 0x10 else s.cpsr.mode) i.toNat = .ok cell) (listedBelowPc list) cs)
include hn15 hlist hbank hbase hn hcs

/-- Past the tests a load is the loop over the registers below R15, then the word of R15 where it is listed, the write-back,
the restore and the jump, in that order (`48_arm_block_coproc_swi.md` R753, R754). -/
theorem blockLoad_of_predictable :
    let k := (regList list).length
    let base := s.regs.read cn
    let a := firstAddress m base k
    let n := (listedBelowPc list).length
    let l := loadWords n a s
    let loaded : State := { l.2 with regs := writeAll cs l.1 s.regs }
    let v := memReadAligned (a + BitVec.ofNat 32 (4 * n)) loaded
    blockLoad m sb w rn list s =
      if list.getLsbD 15 then
        writeBack w rn (finalBase m base k) v.2 >>= fun t =>
          (if sb then restoreCpsr t else .ok t) >>= fun u => .ok (writePc v.1 u)
      else writeBack w rn (finalBase m base k) loaded := by
  intro k base a n l loaded v
  have hbank' : (sb && !list.getLsbD 15) = true → hasSpsr s.cpsr.mode = true ∧ w = false := by simpa using hbank
  have hlisted : (w && list.getLsbD rn.toNat) = false := by simpa using hbase
  simp only [blockLoad, userBank_eq, blockCheck_of_predictable hn15 hlist hbank', hlisted, failIf_false, except_ok_bind,
    readReg_of_names hn, blockStart_eq, blockNewBase_eq, regList_without_pc]
  change (loadRegs (sb && !list.getLsbD 15) (listedBelowPc list) a s >>= _) = _
  rw [loadRegs_listedBelowPc a hcs, except_ok_bind]
  cases list.getLsbD 15 <;> cases sb <;> rfl

theorem blockLoad_without_pc (hpc : list.getLsbD 15 = false) :
    let k := (regList list).length
    let base := s.regs.read cn
    let r := loadWords k (firstAddress m base k) s
    let regs := writeAll cs r.1 s.regs
    blockLoad m sb w rn list s =
      .ok { r.2 with regs := if w then regs.write cn (finalBase m base k) else regs } := by
  intro k base r regs
  have hk : (listedBelowPc list).length = k := by
    have h := length_regList list
    rw [hpc] at h
    exact h.symm
  have hcpsr : r.2.cpsr = s.cpsr := (loadWords_onlyLatch k _ s).regs_cpsr.2
  rw [blockLoad_of_predictable hn15 hlist hbank hbase hn hcs, hpc, if_neg Bool.false_ne_true, hk]
  exact writeBack_withRegs _ _ (hn.congr (congrArg Psr.mode hcpsr)) hn15

/-- R15's word is the last loaded, and the jump comes after the write-back and the restore
(`48_arm_block_coproc_swi.md` R754). -/
theorem blockLoad_with_pc (hpc : list.getLsbD 15 = true) :
    let k := (regList list).length
    let base := s.regs.read cn
    let r := loadWords k (firstAddress m base k) s
    let regs := writeAll cs r.1 s.regs
    let t : State := { r.2 with regs := if w then regs.write cn (finalBase m base k) else regs }
    ∃ v, r.1.getLast? = some v ∧
      blockLoad m sb w rn list s = (if sb then restoreCpsr t else .ok t) >>= fun u => .ok (writePc v u) := by
  intro k base r regs t
  let n := (listedBelowPc list).length
  let a := firstAddress m base k
  let l := loadWords n a s
  let v := memReadAligned (a + BitVec.ofNat 32 (4 * n)) l.2
  have hk : k = n + 1 := by
    have h := length_regList list
    rwa [hpc] at h
  have hr : r = (l.1 ++ [v.1], v.2) := by
    rw [show r = loadWords k a s from rfl, hk]
    exact loadWords_succ_last n a s
  have hcpsr : v.2.cpsr = s.cpsr := by
    have h := (loadWords_onlyLatch k a s).regs_cpsr.2
    rwa [show loadWords k a s = _ from hr] at h
  have hcount : cs.length = l.1.length := hcs.length_eq.symm.trans (length_loadWords n a s).symm
  have ht : t = { v.2 with
      regs := if w then (writeAll cs l.1 s.regs).write cn (finalBase m base k) else writeAll cs l.1 s.regs } := by
    simp only [t, regs, hr, writeAll_append_right [v.1] s.regs hcount]
  refine ⟨v.1, by rw [hr, List.getLast?_concat], ?_⟩
  rw [blockLoad_of_predictable hn15 hlist hbank hbase hn hcs, hpc, if_pos rfl, memReadAligned_withRegs]
  exact congrArg (· >>= _) ((writeBack_withRegs _ _ (hn.congr (congrArg Psr.mode hcpsr)) hn15).trans (congrArg _ ht.symm))

end

/-- Settles O39: the load past its tests (`blockLoad_without_pc`, `blockLoad_with_pc`); the restore before the jump copies the saved status
word or, in a mode without one, faults. -/
theorem blockLoad_everyMode : Obligations.BlockLoad := by
  unfold Obligations.BlockLoad
  intro m c sb w rn list s cn cs k base bank r regs t hc hn15 hlist hbank hbase hn hcs
  have hwith := blockLoad_with_pc (m := m) hn15 hlist hbank hbase hn hcs
  have hcpsr : t.cpsr = s.cpsr := (loadWords_onlyLatch k _ s).regs_cpsr.2
  have hsaved : getSpsr t = getSpsr s := by
    obtain ⟨b, hb⟩ := loadWords_onlyLatch k (firstAddress m base k) s
    have hr : r.2 = { s with openBusLatch := b } := hb
    simp only [t, hr]
    rfl
  rw [exec_blockLoadInstr hc]
  refine ⟨fun hpc => ?_, fun hpc => ?_, fun hpc hsb hspsr => ?_⟩
  · rw [blockLoad_without_pc hn15 hlist hbank hbase hn hcs hpc, answer_ok]
  · obtain ⟨v, hv, hload⟩ := hwith hpc
    refine ⟨v, hv, fun hspsr => ?_⟩
    rw [hload]
    cases sb with
    | false => exact answer_ok _
    | true =>
      rw [if_pos rfl, restoreCpsr_of_hasSpsr (hcpsr.symm ▸ hspsr rfl), except_ok_bind, answer_ok, hsaved, if_pos rfl]
  · obtain ⟨v, -, hload⟩ := hwith hpc
    rw [hload, if_pos hsb, restoreCpsr_of_no_spsr (hcpsr ▸ hspsr), except_error_bind, answer_error]

end Sys2Proof.Machine
end


section
/-!
PROOFS. The Thumb arithmetic and logic on low registers, and the single loads and stores (`49_thumb.md` R804 to R857): each form
as the result of one opcode, or one access, on the registers' words.
-/

namespace Sys2Proof.Machine

/-! ### Arithmetic and logic -/

/-- The state after opcode `op` on the operands `a` and `b`, with the shifter's carry `shc`: Rd and the flags, or for a
comparison the flags alone (`49_thumb.md` R804 to R835). -/
def aluState (op : DpOp) (a b : Word) (shc : Bool) (rd : LowReg) (s : State) : State :=
  let x := dpCompute op a b shc s.cpsr.c
  { s with
    regs := if dpComparison op then s.regs else s.regs.write (lowCell rd) x.result
    cpsr := dpFlags op x s.cpsr }

section
variable (f : FlagWrite) (s : State)

theorem lowResult_eq (rd : LowReg) (x : Sum) :
    lowResult f rd x s = .ok { s with regs := s.regs.write (lowCell rd) x.result, cpsr := f.apply x s.cpsr } := by
  rw [lowResult, writeReg_lowReg]
  rfl

theorem lowUnary_eq (rs rd : LowReg) (op : Word → Sum) :
    let x := op (s.regs.read (lowCell rs))
    lowUnary f rs rd op s = .ok { s with regs := s.regs.write (lowCell rd) x.result, cpsr := f.apply x s.cpsr } := by
  rw [lowUnary, readReg_lowReg, except_ok_bind, lowResult_eq]

theorem lowBinary_eq (ra rb rd : LowReg) (op : Word → Word → Sum) :
    let x := op (s.regs.read (lowCell ra)) (s.regs.read (lowCell rb))
    lowBinary f ra rb rd op s = .ok { s with regs := s.regs.write (lowCell rd) x.result, cpsr := f.apply x s.cpsr } := by
  rw [lowBinary, readReg_lowReg, readReg_lowReg, except_ok_bind, except_ok_bind, lowResult_eq]

theorem lowCompare_eq (ra rb : LowReg) (op : Word → Word → Sum) :
    lowCompare f ra rb op s =
      .ok { s with cpsr := f.apply (op (s.regs.read (lowCell ra)) (s.regs.read (lowCell rb))) s.cpsr } := by
  rw [lowCompare, readReg_lowReg, readReg_lowReg]
  rfl

end

/-- Every form is its opcode on the words of its registers; what a logical form or a move leaves of the flags is what the
opcode would write there (`49_thumb.md` R804 to R835). -/
theorem exec_of_thumbAlu {i : Instr} {s : State} {op : DpOp} {a b : Word} {shc : Bool} {rd : LowReg}
    (h : thumbAlu i (fun r => s.regs.read (lowCell r)) s.cpsr = some (op, a, b, shc, rd)) :
    exec i s = .next (aluState op a b shc rd s) := by
  cases i with
  | tAddReg rn rs rd | tSubReg rn rs rd =>
    cases h
    exact congrArg answer (lowBinary_eq _ s rs rn rd _)
  | tAddImm3 n rs rd | tSubImm3 n rs rd | tLslImm n rs rd | tLsrImm n rs rd | tAsrImm n rs rd =>
    cases h
    exact congrArg answer (lowUnary_eq _ s rs rd _)
  | tMovImm rd n =>
    cases h
    exact congrArg answer (lowResult_eq _ s rd _)
  | tAddImm8 rd n | tSubImm8 rd n =>
    cases h
    exact congrArg answer (lowUnary_eq _ s rd rd _)
  | tNeg rs rd | tMvn rs rd =>
    cases h
    exact congrArg answer (lowUnary_eq _ s rs rd _)
  | tAnd rs rd | tEor rs rd | tLslReg rs rd | tLsrReg rs rd | tAsrReg rs rd | tAdc rs rd | tSbc rs rd | tRor rs rd
  | tOrr rs rd | tBic rs rd =>
    cases h
    exact congrArg answer (lowBinary_eq _ s rd rs rd _)
  | tTst rs rd | tCmpReg rs rd | tCmn rs rd =>
    cases h
    exact congrArg answer (lowCompare_eq _ s rd rs _)
  | tCmpImm rd n =>
    cases h
    exact congrArg (fun r => answer (r >>= fun a =>
      .ok { s with cpsr := s.cpsr.setNZCV (subtract a (n.zeroExtend 32)) })) (readReg_lowReg rd s)
  | _ => cases h

/-- Settles O44: every form is its opcode (`exec_of_thumbAlu`), in exact arithmetic (`dpCompute_result`, `dpFlags_eq`). -/
theorem thumbArithmetic : Obligations.ThumbArithmetic := by
  unfold Obligations.ThumbArithmetic
  intro i s op a b shc rd h
  rw [exec_of_thumbAlu h, aluState, dpFlags_eq, dpCompute_result]

/-! ### Loads and stores -/

theorem loadOf_onlyLatch (k : LoadKind) (a : Word) (s : State) : OnlyLatch s (loadOf k a s).2 := by
  cases k with
  | word => exact read32_onlyLatch a s
  | byte => exact read8_onlyLatch a s
  | half => exact halfLoad_onlyLatch .unsignedHalf a s
  | signedByte => exact halfLoad_onlyLatch .signedByte a s
  | signedHalf => exact halfLoad_onlyLatch .signedHalf a s

/-- The state after a load of kind `k` at `a` into Rd (`49_thumb.md` R802). -/
def loadedState (k : LoadKind) (rd : LowReg) (a : Word) (s : State) : State :=
  { (loadOf k a s).2 with regs := s.regs.write (lowCell rd) (loadOf k a s).1 }

theorem writeReg_loadOf (k : LoadKind) (rd : LowReg) (a : Word) (s : State) :
    writeReg (lowReg rd) (loadOf k a s).1 (loadOf k a s).2 = .ok (loadedState k rd a s) := by
  rw [writeReg_lowReg, (loadOf_onlyLatch k a s).regs_cpsr.1]
  rfl

section
variable (s : State) {rd : LowReg}

theorem baseIndex_eq (rb ro : LowReg) :
    baseIndex rb ro s = .ok (s.regs.read (lowCell rb) + s.regs.read (lowCell ro)) := by
  rw [baseIndex, readReg_lowReg, readReg_lowReg]
  rfl

theorem baseOffset_lowReg (rb : LowReg) (x : Word) :
    baseOffset (lowReg rb) x s = .ok (s.regs.read (lowCell rb) + x) := by
  rw [baseOffset, readReg_lowReg]
  rfl

theorem baseOffset_of_read {sp : Word} (x : Word) (h : readReg 13 s = .ok sp) : baseOffset 13 x s = .ok (sp + x) := by
  rw [baseOffset, h]
  rfl

/-- A load whose address is read is the access and the write of Rd. -/
theorem load_of_address {i : Instr} {address : Except Fault Word} {a : Word} (k : LoadKind)
    (hexec : exec i s = answer (address >>= fun a => writeReg (lowReg rd) (loadOf k a s).1 (loadOf k a s).2))
    (ha : address = .ok a) : exec i s = .next (loadedState k rd a s) := by
  rw [hexec, ha, except_ok_bind, writeReg_loadOf, answer_ok]

/-- A store whose address is read is the access. -/
theorem store_of_address {i : Instr} {address : Except Fault Word} {a : Word} (w : Width)
    (hexec : exec i s = answer (address >>= fun a => lowStore w rd a s))
    (ha : address = .ok a) : exec i s = .next (memWrite w a (s.regs.read (lowCell rd)) s) := by
  rw [hexec, ha, except_ok_bind, lowStore, readReg_lowReg]
  rfl

end

/-- Settles O47: each form reads its address (`baseIndex_eq`, `baseOffset_lowReg`, `baseOffset_of_read`), its offset in exact
arithmetic, and loads from there (`load_of_address`). -/
theorem thumbLoads : Obligations.ThumbLoads := by
  unfold Obligations.ThumbLoads
  intro i s sp k rd a hsp h
  cases i with
  | tLdrPc r n =>
    cases h
    rw [← word8Offset_eq]
    exact congrArg answer (writeReg_loadOf .word rd _ s)
  | tLdrReg ro rb r | tLdrbReg ro rb r | tLdsb ro rb r | tLdrhReg ro rb r | tLdsh ro rb r =>
    cases h
    exact load_of_address s _ rfl (baseIndex_eq s rb ro)
  | tLdrImm n rb r =>
    cases h
    rw [← off5Word_eq]
    exact load_of_address s _ rfl (baseOffset_lowReg s rb _)
  | tLdrbImm n rb r =>
    cases h
    rw [← off5Byte_eq]
    exact load_of_address s _ rfl (baseOffset_lowReg s rb _)
  | tLdrhImm n rb r =>
    cases h
    rw [← off5Half_eq]
    exact load_of_address s _ rfl (baseOffset_lowReg s rb _)
  | tLdrSp r n =>
    cases h
    rw [← word8Offset_eq]
    exact load_of_address s _ rfl (baseOffset_of_read s _ (hsp rfl))
  | _ => cases h

/-- Settles O48: each form reads its address as the loads do, and stores Rd there (`store_of_address`). -/
theorem thumbStores : Obligations.ThumbStores := by
  unfold Obligations.ThumbStores
  intro i s sp w rd a hsp h
  change exec i s = .next (memWrite w a (s.regs.read (lowCell rd)) s)
  cases i with
  | tStrReg ro rb r | tStrbReg ro rb r | tStrhReg ro rb r =>
    cases h
    exact store_of_address s _ rfl (baseIndex_eq s rb ro)
  | tStrImm n rb r =>
    cases h
    rw [← off5Word_eq]
    exact store_of_address s _ rfl (baseOffset_lowReg s rb _)
  | tStrbImm n rb r =>
    cases h
    rw [← off5Byte_eq]
    exact store_of_address s _ rfl (baseOffset_lowReg s rb _)
  | tStrhImm n rb r =>
    cases h
    rw [← off5Half_eq]
    exact store_of_address s _ rfl (baseOffset_lowReg s rb _)
  | tStrSp r n =>
    cases h
    rw [← word8Offset_eq]
    exact store_of_address s _ rfl (baseOffset_of_read s _ (hsp rfl))
  | _ => cases h

end Sys2Proof.Machine
end


section
/-!
PROOFS. No instruction reads the interrupt lines: whatever it answers, it answers with the lines set otherwise, and the lines
are all that differs (`60_exceptions.md` R904, R908).
-/

namespace Sys2Proof.Machine

/-! ### Sequences that go the same way -/

/-- Where `x` answers a value, `y` answers its image under `g`. -/
structure Follows {α : Type} (g : α → α) (x y : Except Fault α) : Prop where
  of_ok : ∀ a, x = .ok a → y = .ok (g a)

section
variable {α β : Type} {g : α → α} {h : β → β}

theorem Follows.ok (a : α) : Follows g (.ok a) (.ok (g a)) := ⟨fun _ ha => Except.ok.inj ha ▸ rfl⟩

theorem Follows.error (f : Fault) (y : Except Fault α) : Follows g (.error f) y := ⟨fun _ ha => nomatch ha⟩

theorem Follows.bind {x y : Except Fault α} {f f' : α → Except Fault β} (hx : Follows g x y)
    (hf : ∀ a, Follows h (f a) (f' (g a))) : Follows h (x >>= f) (y >>= f') := by
  cases x with
  | error e => exact .error e _
  | ok a =>
    rw [hx.of_ok a rfl]
    exact hf a

theorem Follows.ite {c : Prop} [Decidable c] {x y x' y' : Except Fault α} (hx : Follows g x y) (hx' : Follows g x' y') :
    Follows g (if c then x else x') (if c then y else y') := by
  split
  · exact hx
  · exact hx'

end

section
variable (irq fiq : Bool)

/-! ### Tests and reads -/

theorem failIf_follows (b : Bool) (r : FaultReason) (s : State) :
    Follows id (failIf b r s) (failIf b r (setLines irq fiq s)) :=
  ⟨fun _ hok => failIf_eq_ok.mpr (failIf_eq_ok.mp hok)⟩

theorem readRegAs_follows (m : ModeBits) (i : Reg) (s : State) :
    Follows id (readRegAs m i s) (readRegAs m i (setLines irq fiq s)) :=
  ⟨fun _ hok => readRegAs_eq_ok.mpr ((readRegAs_eq_ok (s := s)).mp hok)⟩

theorem readReg_follows (i : Reg) (s : State) : Follows id (readReg i s) (readReg i (setLines irq fiq s)) :=
  readRegAs_follows irq fiq s.cpsr.mode i s

theorem operand2_follows (o : Operand2) (s : State) : Follows id (operand2 o s) (operand2 o (setLines irq fiq s)) := by
  cases o with
  | imm => exact .ok _
  | immShift _ _ rm => exact (readReg_follows irq fiq rm s).bind fun _ => .ok _
  | regShift rs _ rm =>
    exact (readReg_follows irq fiq rm s).bind fun _ => (readReg_follows irq fiq rs s).bind fun _ => .ok _

theorem sdtOffset_follows (o : SdtOffset) (s : State) :
    Follows id (sdtOffset o s) (sdtOffset o (setLines irq fiq s)) := by
  cases o with
  | imm => exact .ok _
  | reg _ _ rm => exact (readReg_follows irq fiq rm s).bind fun _ => .ok _

theorem halfOffset_follows (o : HalfOffset) (s : State) :
    Follows id (halfOffset o s) (halfOffset o (setLines irq fiq s)) := by
  cases o with
  | imm => exact .ok _
  | reg rm => exact readReg_follows irq fiq rm s

theorem storedReg_follows (userBank : Bool) (i : Reg) (s : State) :
    Follows id (storedReg userBank i s) (storedReg userBank i (setLines irq fiq s)) :=
  .ite (.ok _) (readRegAs_follows irq fiq _ i s)

/-! ### Memory -/

theorem readByte_setLines (a : Word) (s : State) :
    readByte a (setLines irq fiq s) = ((readByte a s).1, setLines irq fiq (readByte a s).2) := by
  rw [readByte_eq, readByte_eq]
  rfl

theorem read8_setLines (a : Word) (s : State) :
    read8 a (setLines irq fiq s) = ((read8 a s).1, setLines irq fiq (read8 a s).2) := by
  simp only [read8, readByte_setLines]

theorem read16_setLines (a : Word) (s : State) :
    read16 a (setLines irq fiq s) = ((read16 a s).1, setLines irq fiq (read16 a s).2) := by
  simp only [read16, readByte_setLines]

theorem read32_setLines (a : Word) (s : State) :
    read32 a (setLines irq fiq s) = ((read32 a s).1, setLines irq fiq (read32 a s).2) := by
  simp only [read32, readByte_setLines]

theorem byteOrWordRead_setLines (byte : Bool) (a : Word) (s : State) :
    (if byte then read8 a (setLines irq fiq s) else read32 a (setLines irq fiq s)) =
      ((if byte then read8 a s else read32 a s).1, setLines irq fiq (if byte then read8 a s else read32 a s).2) := by
  cases byte
  · exact read32_setLines irq fiq a s
  · exact read8_setLines irq fiq a s

theorem loadOf_setLines (k : LoadKind) (a : Word) (s : State) :
    loadOf k a (setLines irq fiq s) = ((loadOf k a s).1, setLines irq fiq (loadOf k a s).2) := by
  cases k with
  | word => exact read32_setLines irq fiq a s
  | byte => exact read8_setLines irq fiq a s
  | half => exact read16_setLines irq fiq a s
  | signedByte => simp only [loadOf, read8_setLines]
  | signedHalf =>
    simp only [loadOf, read8_setLines, read16_setLines]
    split <;> rfl

/-- The halfword category's loads are loads of these kinds (`47_arm_swap_halfword.md` R713 to R716). -/
def HalfLoad.loadKind : HalfLoad → LoadKind
  | .unsignedHalf => .half
  | .signedByte => .signedByte
  | .signedHalf => .signedHalf

theorem halfLoad_eq_loadOf (k : HalfLoad) (a : Word) (s : State) : halfLoad k a s = loadOf k.loadKind a s := by
  cases k <;> rfl

theorem writeByte_setLines (a : Word) (b : Byte) (s : State) :
    writeByte a b (setLines irq fiq s) = setLines irq fiq (writeByte a b s) := by
  cases hcell : writeCell s a with
  | none => rw [writeByte_of_discarded b hcell, writeByte_of_discarded (s := setLines irq fiq s) b hcell]
  | some k =>
    rw [writeByte_of_cell b hcell, writeByte_of_cell (s := setLines irq fiq s) b hcell]
    rfl

theorem write8_setLines (a v : Word) (s : State) :
    write8 a v (setLines irq fiq s) = setLines irq fiq (write8 a v s) := writeByte_setLines irq fiq a _ s

theorem write16_setLines (a v : Word) (s : State) :
    write16 a v (setLines irq fiq s) = setLines irq fiq (write16 a v s) := by
  simp only [write16, writeByte_setLines]

theorem write32_setLines (a v : Word) (s : State) :
    write32 a v (setLines irq fiq s) = setLines irq fiq (write32 a v s) := by
  have hword : storedWord a v (setLines irq fiq s) = storedWord a v s := rfl
  simp only [write32, hword, writeByte_setLines]

theorem byteOrWordWrite_setLines (byte : Bool) (a v : Word) (s : State) :
    (if byte then write8 a v (setLines irq fiq s) else write32 a v (setLines irq fiq s)) =
      setLines irq fiq (if byte then write8 a v s else write32 a v s) := by
  cases byte
  · exact write32_setLines irq fiq a v s
  · exact write8_setLines irq fiq a v s

theorem memWrite_setLines (w : Width) (a v : Word) (s : State) :
    memWrite w a v (setLines irq fiq s) = setLines irq fiq (memWrite w a v s) := by
  cases w
  · exact write8_setLines irq fiq a v s
  · exact write16_setLines irq fiq a v s
  · exact write32_setLines irq fiq a v s

/-! ### Registers and status words -/

theorem writeRegAs_follows (m : ModeBits) (i : Reg) (v : Word) (s : State) :
    Follows (setLines irq fiq) (writeRegAs m i v s) (writeRegAs m i v (setLines irq fiq s)) := by
  refine ⟨fun t ht => writeRegAs_eq_ok.mpr ?_⟩
  rcases writeRegAs_eq_ok.mp ht with ⟨hi, rfl⟩ | ⟨hi, c, hc, rfl⟩
  · exact .inl ⟨hi, rfl⟩
  · exact .inr ⟨hi, c, hc, rfl⟩

theorem writeReg_follows (i : Reg) (v : Word) (s : State) :
    Follows (setLines irq fiq) (writeReg i v s) (writeReg i v (setLines irq fiq s)) :=
  writeRegAs_follows irq fiq s.cpsr.mode i v s

theorem writeBack_follows (wb : Bool) (i : Reg) (v : Word) (s : State) :
    Follows (setLines irq fiq) (writeBack wb i v s) (writeBack wb i v (setLines irq fiq s)) :=
  .ite (writeReg_follows irq fiq i v s) (.ok s)

theorem restoreCpsr_follows (s : State) :
    Follows (setLines irq fiq) (restoreCpsr s) (restoreCpsr (setLines irq fiq s)) :=
  .ite (.ok _) (.error _ _)

theorem setSpsr_setLines (p : Psr) (s : State) :
    setSpsr p (setLines irq fiq s) = setLines irq fiq (setSpsr p s) := by
  rw [setSpsr_eq, setSpsr_eq]
  rfl

theorem raise_follows (e : Exception) (r : FaultReason) (s : State) :
    Follows (setLines irq fiq) (raise e r s) (raise e r (setLines irq fiq s)) := by
  refine ⟨fun t ht => raise_eq_ok.mpr ?_⟩
  rcases raise_eq_ok.mp ht with ⟨hpolicy, rfl⟩ | ⟨hpolicy, rfl⟩
  · exact .inl ⟨hpolicy, rfl⟩
  · exact .inr ⟨hpolicy, by rw [enterException_eq, enterException_eq]; rfl⟩

/-! ### The ARM handlers -/

theorem dpFinish_follows (op : DpOp) (sf : Bool) (rd : Reg) (x : Sum) (s : State) :
    Follows (setLines irq fiq) (dpFinish op sf rd x s) (dpFinish op sf rd x (setLines irq fiq s)) := by
  refine .ite (.ok _) (.ite ?_ ((writeReg_follows irq fiq rd _ s).bind fun t => ?_))
  · cases sf with
    | false => exact .ok _
    | true => exact (restoreCpsr_follows irq fiq s).bind fun _ => .ok _
  · cases sf <;> exact .ok _

theorem dataProcessing_follows (op : DpOp) (sf : Bool) (rn rd : Reg) (o : Operand2) (s : State) :
    Follows (setLines irq fiq) (dataProcessing op sf rn rd o s) (dataProcessing op sf rn rd o (setLines irq fiq s)) := by
  refine (failIf_follows irq fiq _ _ s).bind fun _ => (operand2_follows irq fiq o s).bind fun sh => ?_
  exact .ite (dpFinish_follows irq fiq op sf rd _ s)
    ((readReg_follows irq fiq rn s).bind fun a => dpFinish_follows irq fiq op sf rd _ s)

theorem finishLoad_follows (rd : Reg) (addr v : Word) (s : State) :
    Follows (setLines irq fiq) (finishLoad rd addr v s) (finishLoad rd addr v (setLines irq fiq s)) :=
  .ite ((failIf_follows irq fiq _ _ s).bind fun _ => .ok _) (writeReg_follows irq fiq rd v s)

theorem sdtCheck_follows (byte p w : Bool) (rn rd : Reg) (off : SdtOffset) (s : State) :
    Follows id (sdtCheck byte p w rn rd off s) (sdtCheck byte p w rn rd off (setLines irq fiq s)) :=
  (failIf_follows irq fiq _ _ s).bind fun _ => (failIf_follows irq fiq _ _ s).bind fun _ =>
    (failIf_follows irq fiq _ _ s).bind fun _ => failIf_follows irq fiq _ _ s

theorem singleLoad_follows (byte p u w : Bool) (rn rd : Reg) (off : SdtOffset) (s : State) :
    Follows (setLines irq fiq) (singleLoad byte p u w rn rd off s)
      (singleLoad byte p u w rn rd off (setLines irq fiq s)) := by
  refine (sdtCheck_follows irq fiq byte p w rn rd off s).bind fun _ => (sdtOffset_follows irq fiq off s).bind fun x =>
    (readReg_follows irq fiq rn s).bind fun base => ?_
  dsimp only [id]
  rw [byteOrWordRead_setLines]
  exact (writeBack_follows irq fiq _ rn _ _).bind fun t => finishLoad_follows irq fiq rd _ _ t

theorem singleStore_follows (byte p u w : Bool) (rn rd : Reg) (off : SdtOffset) (s : State) :
    Follows (setLines irq fiq) (singleStore byte p u w rn rd off s)
      (singleStore byte p u w rn rd off (setLines irq fiq s)) := by
  refine (sdtCheck_follows irq fiq byte p w rn rd off s).bind fun _ => (sdtOffset_follows irq fiq off s).bind fun x =>
    (readReg_follows irq fiq rn s).bind fun base => ?_
  have hend (v : Word) := byteOrWordWrite_setLines irq fiq byte (transferAddress p u base x) v s ▸
    writeBack_follows irq fiq (writesBack p w) rn (applyOffset u base x)
      (if byte then write8 (transferAddress p u base x) v s else write32 (transferAddress p u base x) v s)
  exact .ite (hend _) ((readReg_follows irq fiq rd s).bind hend)

theorem halfCheck_follows (p w : Bool) (rn rd : Reg) (off : HalfOffset) (s : State) :
    Follows id (halfCheck p w rn rd off s) (halfCheck p w rn rd off (setLines irq fiq s)) :=
  (failIf_follows irq fiq _ _ s).bind fun _ => (failIf_follows irq fiq _ _ s).bind fun _ =>
    (failIf_follows irq fiq _ _ s).bind fun _ => (failIf_follows irq fiq _ _ s).bind fun _ =>
    failIf_follows irq fiq _ _ s

theorem halfwordLoad_follows (k : HalfLoad) (p u w : Bool) (rn rd : Reg) (off : HalfOffset) (s : State) :
    Follows (setLines irq fiq) (halfwordLoad k p u w rn rd off s)
      (halfwordLoad k p u w rn rd off (setLines irq fiq s)) := by
  refine (halfCheck_follows irq fiq p w rn rd off s).bind fun _ => (halfOffset_follows irq fiq off s).bind fun x =>
    (readReg_follows irq fiq rn s).bind fun base => ?_
  dsimp only [id]
  rw [halfLoad_eq_loadOf, halfLoad_eq_loadOf, loadOf_setLines]
  exact (writeBack_follows irq fiq _ rn _ _).bind fun t => writeReg_follows irq fiq rd _ t

theorem halfwordStore_follows (p u w : Bool) (rn rd : Reg) (off : HalfOffset) (s : State) :
    Follows (setLines irq fiq) (halfwordStore p u w rn rd off s)
      (halfwordStore p u w rn rd off (setLines irq fiq s)) := by
  refine (halfCheck_follows irq fiq p w rn rd off s).bind fun _ => (halfOffset_follows irq fiq off s).bind fun x =>
    (readReg_follows irq fiq rn s).bind fun base => (readReg_follows irq fiq rd s).bind fun v => ?_
  dsimp only [id]
  rw [write16_setLines]
  exact writeBack_follows irq fiq _ rn _ _

theorem swap_follows (byte : Bool) (rn rd rm : Reg) (s : State) :
    Follows (setLines irq fiq) (swap byte rn rd rm s) (swap byte rn rd rm (setLines irq fiq s)) := by
  refine (failIf_follows irq fiq _ _ s).bind fun _ => (failIf_follows irq fiq _ _ s).bind fun _ =>
    (readReg_follows irq fiq rn s).bind fun addr => (readReg_follows irq fiq rm s).bind fun v => ?_
  dsimp only [id]
  rw [byteOrWordRead_setLines, byteOrWordWrite_setLines]
  exact writeReg_follows irq fiq rd _ _

theorem branchExchange_follows (v : Word) (s : State) :
    Follows (setLines irq fiq) (branchExchange v s) (branchExchange v (setLines irq fiq s)) :=
  .ite (.ok _) ((failIf_follows irq fiq _ _ s).bind fun _ => .ok _)

theorem branch_follows (link : Bool) (imm24 : BitVec 24) (s : State) :
    Follows (setLines irq fiq) (branch link imm24 s) (branch link imm24 (setLines irq fiq s)) := by
  cases link with
  | false => exact .ok _
  | true => exact (writeReg_follows irq fiq 14 _ s).bind fun t => .ok (writePc _ t)

theorem multiply_follows (acc : Option Reg) (sf : Bool) (rd rs rm : Reg) (s : State) :
    Follows (setLines irq fiq) (multiply acc sf rd rs rm s) (multiply acc sf rd rs rm (setLines irq fiq s)) := by
  have hend (r : Word) : Follows (setLines irq fiq) (writeReg rd r s >>= fun t => .ok (if sf then mulFlags r t else t))
      (writeReg rd r (setLines irq fiq s) >>= fun t => .ok (if sf then mulFlags r t else t)) := by
    refine (writeReg_follows irq fiq rd r s).bind fun t => ?_
    cases sf <;> exact .ok _
  refine (failIf_follows irq fiq _ _ s).bind fun _ => (failIf_follows irq fiq _ _ s).bind fun _ =>
    (readReg_follows irq fiq rm s).bind fun a => (readReg_follows irq fiq rs s).bind fun b => ?_
  cases acc with
  | none => exact hend _
  | some rn => exact (readReg_follows irq fiq rn s).bind fun n => hend _

theorem multiplyLong_follows (signed acc sf : Bool) (hi lo rs rm : Reg) (s : State) :
    Follows (setLines irq fiq) (multiplyLong signed acc sf hi lo rs rm s)
      (multiplyLong signed acc sf hi lo rs rm (setLines irq fiq s)) := by
  have hend (p : BitVec 64) : Follows (setLines irq fiq)
      (writeReg lo (p.extractLsb' 0 32) s >>= fun t =>
        writeReg hi (p.extractLsb' 32 32) t >>= fun u => .ok (if sf then mullFlags p u else u))
      (writeReg lo (p.extractLsb' 0 32) (setLines irq fiq s) >>= fun t =>
        writeReg hi (p.extractLsb' 32 32) t >>= fun u => .ok (if sf then mullFlags p u else u)) := by
    refine (writeReg_follows irq fiq lo _ s).bind fun t => (writeReg_follows irq fiq hi _ t).bind fun u => ?_
    cases sf <;> exact .ok _
  refine (failIf_follows irq fiq _ _ s).bind fun _ => (failIf_follows irq fiq _ _ s).bind fun _ =>
    (readReg_follows irq fiq rm s).bind fun a => (readReg_follows irq fiq rs s).bind fun b => ?_
  cases acc with
  | false => exact hend _
  | true => exact (readReg_follows irq fiq hi s).bind fun _ => (readReg_follows irq fiq lo s).bind fun _ => hend _

theorem moveToPsr_follows (r : Bool) (mask : BitVec 4) (v : Word) (s : State) :
    Follows (setLines irq fiq) (moveToPsr r mask v s) (moveToPsr r mask v (setLines irq fiq s)) := by
  refine .ite ?_ ((failIf_follows irq fiq _ _ s).bind fun _ => .ok _)
  rw [setSpsr_setLines]
  exact .ok _

theorem moveFromPsr_follows (r : Bool) (rd : Reg) (s : State) :
    Follows (setLines irq fiq) (moveFromPsr r rd s) (moveFromPsr r rd (setLines irq fiq s)) :=
  (failIf_follows irq fiq _ _ s).bind fun _ => writeReg_follows irq fiq rd _ s

/-! ### Block transfers -/

theorem memReadAligned_setLines (a : Word) (s : State) :
    memReadAligned a (setLines irq fiq s) = ((memReadAligned a s).1, setLines irq fiq (memReadAligned a s).2) :=
  read32_setLines irq fiq _ s

theorem loadRegs_follows (userBank : Bool) (is : List Reg) (a : Word) (s : State) :
    Follows (Prod.map id (setLines irq fiq)) (loadRegs userBank is a s) (loadRegs userBank is a (setLines irq fiq s)) := by
  induction is generalizing a s with
  | nil => exact .ok _
  | cons i is ih =>
    rw [loadRegs, loadRegs, memReadAligned_setLines]
    exact (writeRegAs_follows irq fiq _ i _ _).bind fun t => ih (a + 4) t

theorem storeRegs_follows (userBank : Bool) (is : List Reg) (a : Word) (s : State) :
    Follows (setLines irq fiq) (storeRegs userBank is a s) (storeRegs userBank is a (setLines irq fiq s)) := by
  induction is generalizing a s with
  | nil => exact .ok _
  | cons i is ih =>
    refine (storedReg_follows irq fiq userBank i s).bind fun v => ?_
    have hword : memWriteAligned a v (setLines irq fiq s) = setLines irq fiq (memWriteAligned a v s) :=
      write32_setLines irq fiq _ v s
    exact hword ▸ ih (a + 4) (memWriteAligned a v s)

theorem blockCheck_follows (userBank w : Bool) (rn : Reg) (list : BitVec 16) (s : State) :
    Follows id (blockCheck userBank w rn list s) (blockCheck userBank w rn list (setLines irq fiq s)) :=
  (failIf_follows irq fiq _ _ s).bind fun _ => (failIf_follows irq fiq _ _ s).bind fun _ =>
    (failIf_follows irq fiq _ _ s).bind fun _ => failIf_follows irq fiq _ _ s

theorem blockLoad_follows (m : BlockMode) (sb w : Bool) (rn : Reg) (list : BitVec 16) (s : State) :
    Follows (setLines irq fiq) (blockLoad m sb w rn list s) (blockLoad m sb w rn list (setLines irq fiq s)) := by
  refine (blockCheck_follows irq fiq _ w rn list s).bind fun _ => (failIf_follows irq fiq _ _ s).bind fun _ =>
    (readReg_follows irq fiq rn s).bind fun base => (loadRegs_follows irq fiq _ _ _ s).bind fun r => ?_
  refine .ite ?_ (writeBack_follows irq fiq w rn _ r.2)
  rw [Prod.map_fst, Prod.map_snd, memReadAligned_setLines]
  refine (writeBack_follows irq fiq w rn _ _).bind fun t => ?_
  exact .ite ((restoreCpsr_follows irq fiq t).bind fun _ => .ok _) (.ok _)

theorem blockStore_follows (m : BlockMode) (sb w : Bool) (rn : Reg) (list : BitVec 16) (s : State) :
    Follows (setLines irq fiq) (blockStore m sb w rn list s) (blockStore m sb w rn list (setLines irq fiq s)) :=
  (blockCheck_follows irq fiq sb w rn list s).bind fun _ => (failIf_follows irq fiq _ _ s).bind fun _ =>
    (readReg_follows irq fiq rn s).bind fun _ => (storeRegs_follows irq fiq sb _ _ s).bind fun t =>
    writeBack_follows irq fiq w rn _ t

/-! ### The Thumb handlers -/

theorem lowResult_follows (f : FlagWrite) (rd : LowReg) (x : Sum) (s : State) :
    Follows (setLines irq fiq) (lowResult f rd x s) (lowResult f rd x (setLines irq fiq s)) :=
  (writeReg_follows irq fiq _ _ s).bind fun t => .ok { t with cpsr := f.apply x t.cpsr }

theorem lowUnary_follows (f : FlagWrite) (rs rd : LowReg) (op : Word → Sum) (s : State) :
    Follows (setLines irq fiq) (lowUnary f rs rd op s) (lowUnary f rs rd op (setLines irq fiq s)) :=
  (readReg_follows irq fiq _ s).bind fun _ => lowResult_follows irq fiq f rd _ s

theorem lowBinary_follows (f : FlagWrite) (ra rb rd : LowReg) (op : Word → Word → Sum) (s : State) :
    Follows (setLines irq fiq) (lowBinary f ra rb rd op s) (lowBinary f ra rb rd op (setLines irq fiq s)) :=
  (readReg_follows irq fiq _ s).bind fun _ => (readReg_follows irq fiq _ s).bind fun _ =>
    lowResult_follows irq fiq f rd _ s

theorem lowCompare_follows (f : FlagWrite) (ra rb : LowReg) (op : Word → Word → Sum) (s : State) :
    Follows (setLines irq fiq) (lowCompare f ra rb op s) (lowCompare f ra rb op (setLines irq fiq s)) :=
  (readReg_follows irq fiq _ s).bind fun _ => (readReg_follows irq fiq _ s).bind fun _ => .ok _

theorem lowMultiply_follows (rs rd : LowReg) (s : State) :
    Follows (setLines irq fiq) (lowMultiply rs rd s) (lowMultiply rs rd (setLines irq fiq s)) :=
  (failIf_follows irq fiq _ _ s).bind fun _ => (readReg_follows irq fiq _ s).bind fun _ =>
    (readReg_follows irq fiq _ s).bind fun _ => (writeReg_follows irq fiq _ _ s).bind fun t => .ok (mulFlags _ t)

theorem baseIndex_follows (rb ro : LowReg) (s : State) :
    Follows id (baseIndex rb ro s) (baseIndex rb ro (setLines irq fiq s)) :=
  (readReg_follows irq fiq _ s).bind fun _ => (readReg_follows irq fiq _ s).bind fun _ => .ok _

theorem baseOffset_follows (rb : Reg) (x : Word) (s : State) :
    Follows id (baseOffset rb x s) (baseOffset rb x (setLines irq fiq s)) :=
  (readReg_follows irq fiq _ s).bind fun _ => .ok _

theorem writeReg_loadOf_follows (k : LoadKind) (rd : LowReg) (a : Word) (s : State) :
    Follows (setLines irq fiq) (writeReg (lowReg rd) (loadOf k a s).1 (loadOf k a s).2)
      (writeReg (lowReg rd) (loadOf k a (setLines irq fiq s)).1 (loadOf k a (setLines irq fiq s)).2) := by
  rw [loadOf_setLines]
  exact writeReg_follows irq fiq _ _ _

theorem lowStore_follows (w : Width) (rd : LowReg) (a : Word) (s : State) :
    Follows (setLines irq fiq) (lowStore w rd a s) (lowStore w rd a (setLines irq fiq s)) := by
  refine (readReg_follows irq fiq _ s).bind fun v => ?_
  dsimp only [id]
  rw [memWrite_setLines]
  exact .ok _

theorem push_follows (r : Bool) (rlist : BitVec 8) (s : State) :
    Follows (setLines irq fiq) (push r rlist s) (push r rlist (setLines irq fiq s)) :=
  (failIf_follows irq fiq _ _ s).bind fun _ => (readReg_follows irq fiq 13 s).bind fun _ =>
    (storeRegs_follows irq fiq false _ _ s).bind fun t => writeReg_follows irq fiq 13 _ t

theorem pop_follows (r : Bool) (rlist : BitVec 8) (s : State) :
    Follows (setLines irq fiq) (pop r rlist s) (pop r rlist (setLines irq fiq s)) := by
  refine (failIf_follows irq fiq _ _ s).bind fun _ => (readReg_follows irq fiq 13 s).bind fun sp =>
    (loadRegs_follows irq fiq false _ _ s).bind fun l => ?_
  refine .ite ?_ (writeReg_follows irq fiq 13 _ l.2)
  rw [Prod.map_fst, Prod.map_snd, memReadAligned_setLines]
  exact (writeReg_follows irq fiq 13 _ _).bind fun t => .ok (writePc _ t)

theorem lowStoreMultiple_follows (rb : LowReg) (rlist : BitVec 8) (s : State) :
    Follows (setLines irq fiq) (lowStoreMultiple rb rlist s) (lowStoreMultiple rb rlist (setLines irq fiq s)) :=
  (failIf_follows irq fiq _ _ s).bind fun _ => (failIf_follows irq fiq _ _ s).bind fun _ =>
    (readReg_follows irq fiq _ s).bind fun _ => (storeRegs_follows irq fiq false _ _ s).bind fun t =>
    writeReg_follows irq fiq _ _ t

theorem lowLoadMultiple_follows (rb : LowReg) (rlist : BitVec 8) (s : State) :
    Follows (setLines irq fiq) (lowLoadMultiple rb rlist s) (lowLoadMultiple rb rlist (setLines irq fiq s)) :=
  (failIf_follows irq fiq _ _ s).bind fun _ => (readReg_follows irq fiq _ s).bind fun _ =>
    (loadRegs_follows irq fiq false _ _ s).bind fun l => writeBack_follows irq fiq _ _ _ l.2

end

end Sys2Proof.Machine
end


section
/-!
PROOFS. The interrupt lines of a step (`60_exceptions.md` R904, R908): an instruction answers alike however they stand, so does
the end of the step, and each policy's use of them.
-/

namespace Sys2Proof.Machine

/-! ### Every instruction -/

section
variable {irq fiq : Bool} {s t : State}

theorem answer_follows {x y : Except Fault State} (hxy : Follows (setLines irq fiq) x y) (h : answer x = .next t) :
    answer y = .next (setLines irq fiq t) := answer_eq_next.mpr (hxy.of_ok t (answer_eq_next.mp h))

theorem whenPassed_follows {c : Cond} {x y : Except Fault State} (hxy : Follows (setLines irq fiq) x y)
    (h : whenPassed c s x = .next t) : whenPassed c (setLines irq fiq s) y = .next (setLines irq fiq t) := by
  refine whenPassed_eq_next.mpr ?_
  rcases whenPassed_eq_next.mp h with ⟨hfailed, rfl⟩ | ⟨hpassed, hok⟩
  · exact .inl ⟨hfailed, rfl⟩
  · exact .inr ⟨hpassed, hxy.of_ok t hok⟩

/-- An instruction answers alike however the lines stand. -/
theorem exec_setLines {i : Instr} (h : exec i s = .next t) :
    exec i (setLines irq fiq s) = .next (setLines irq fiq t) := by
  cases i with
  | bx c rm =>
    exact whenPassed_follows ((readReg_follows irq fiq rm s).bind fun v => branchExchange_follows irq fiq v s) h
  | mul | mla =>
    exact whenPassed_follows (multiply_follows irq fiq _ _ _ _ _ s) h
  | umull | umlal | smull | smlal =>
    exact whenPassed_follows (multiplyLong_follows irq fiq _ _ _ _ _ _ _ s) h
  | swp | swpb =>
    exact whenPassed_follows (swap_follows irq fiq _ _ _ _ s) h
  | strhImm | strhReg =>
    exact whenPassed_follows (halfwordStore_follows irq fiq _ _ _ _ _ _ s) h
  | ldrhImm | ldrhReg | ldrsbImm | ldrsbReg | ldrshImm | ldrshReg =>
    exact whenPassed_follows (halfwordLoad_follows irq fiq _ _ _ _ _ _ _ s) h
  | halfwordSignedStore =>
    exact whenPassed_follows (.error _ _) h
  | mrs =>
    exact whenPassed_follows (moveFromPsr_follows irq fiq _ _ s) h
  | msrReg c r mask rm =>
    exact whenPassed_follows ((failIf_follows irq fiq _ _ s).bind fun _ => (readReg_follows irq fiq rm s).bind fun v =>
      moveToPsr_follows irq fiq _ _ v s) h
  | msrImm =>
    exact whenPassed_follows (moveToPsr_follows irq fiq _ _ _ s) h
  | andImm | andRegImmShift | andRegRegShift | eorImm | eorRegImmShift | eorRegRegShift | subImm | subRegImmShift |
    subRegRegShift | rsbImm | rsbRegImmShift | rsbRegRegShift | addImm | addRegImmShift | addRegRegShift | adcImm |
    adcRegImmShift | adcRegRegShift | sbcImm | sbcRegImmShift | sbcRegRegShift | rscImm | rscRegImmShift |
    rscRegRegShift | orrImm | orrRegImmShift | orrRegRegShift | movImm | movRegImmShift | movRegRegShift | bicImm |
    bicRegImmShift | bicRegRegShift | mvnImm | mvnRegImmShift | mvnRegRegShift | tstImm | tstRegImmShift |
    tstRegRegShift | teqImm | teqRegImmShift | teqRegRegShift | cmpImm | cmpRegImmShift | cmpRegRegShift | cmnImm |
    cmnRegImmShift | cmnRegRegShift =>
    exact whenPassed_follows (dataProcessing_follows irq fiq _ _ _ _ _ s) h
  | undefinedRow8 | ldcStcUndefined | cdp | mcr | mrc | swi =>
    exact whenPassed_follows (raise_follows irq fiq _ _ s) h
  | strt | strbt | str | strb =>
    exact whenPassed_follows (singleStore_follows irq fiq _ _ _ _ _ _ _ s) h
  | ldrt | ldrbt | ldr | ldrb =>
    exact whenPassed_follows (singleLoad_follows irq fiq _ _ _ _ _ _ _ s) h
  | stmda | stmia | stmdb | stmib =>
    exact whenPassed_follows (blockStore_follows irq fiq _ _ _ _ _ s) h
  | ldmda | ldmia | ldmdb | ldmib =>
    exact whenPassed_follows (blockLoad_follows irq fiq _ _ _ _ _ s) h
  | b | bl =>
    exact whenPassed_follows (branch_follows irq fiq _ _ s) h
  | tAddReg | tSubReg | tAnd | tEor | tLslReg | tLsrReg | tAsrReg | tAdc | tSbc | tRor | tOrr | tBic =>
    exact answer_follows (lowBinary_follows irq fiq _ _ _ _ _ s) h
  | tAddImm3 | tSubImm3 | tLslImm | tLsrImm | tAsrImm | tAddImm8 | tSubImm8 | tNeg | tMvn =>
    exact answer_follows (lowUnary_follows irq fiq _ _ _ _ s) h
  | tMovImm =>
    exact answer_follows (lowResult_follows irq fiq _ _ _ s) h
  | tCmpImm rd =>
    exact answer_follows ((readReg_follows irq fiq (lowReg rd) s).bind fun _ => .ok _) h
  | tTst | tCmpReg | tCmn =>
    exact answer_follows (lowCompare_follows irq fiq _ _ _ _ s) h
  | tMul =>
    exact answer_follows (lowMultiply_follows irq fiq _ _ s) h
  | tAddHi =>
    exact answer_follows ((failIf_follows irq fiq _ _ s).bind fun _ => (readReg_follows irq fiq _ s).bind fun _ =>
      (readReg_follows irq fiq _ s).bind fun _ => writeReg_follows irq fiq _ _ s) h
  | tCmpHi =>
    exact answer_follows ((failIf_follows irq fiq _ _ s).bind fun _ => (readReg_follows irq fiq _ s).bind fun _ =>
      (readReg_follows irq fiq _ s).bind fun _ => .ok _) h
  | tMovHi =>
    exact answer_follows ((failIf_follows irq fiq _ _ s).bind fun _ => (readReg_follows irq fiq _ s).bind fun _ =>
      writeReg_follows irq fiq _ _ s) h
  | tBx =>
    exact answer_follows ((failIf_follows irq fiq _ _ s).bind fun _ => (readReg_follows irq fiq _ s).bind fun v =>
      branchExchange_follows irq fiq v s) h
  | tLdrPc rd =>
    exact answer_follows (writeReg_loadOf_follows irq fiq .word rd _ s) h
  | tStrReg | tStrbReg | tStrhReg =>
    exact answer_follows ((baseIndex_follows irq fiq _ _ s).bind fun a => lowStore_follows irq fiq _ _ a s) h
  | tStrImm | tStrbImm | tStrhImm | tStrSp =>
    exact answer_follows ((baseOffset_follows irq fiq _ _ s).bind fun a => lowStore_follows irq fiq _ _ a s) h
  | tLdrReg ro rb rd =>
    exact answer_follows ((baseIndex_follows irq fiq rb ro s).bind fun a => writeReg_loadOf_follows irq fiq .word rd a s) h
  | tLdrbReg ro rb rd =>
    exact answer_follows ((baseIndex_follows irq fiq rb ro s).bind fun a => writeReg_loadOf_follows irq fiq .byte rd a s) h
  | tLdsb ro rb rd =>
    exact answer_follows ((baseIndex_follows irq fiq rb ro s).bind fun a =>
      writeReg_loadOf_follows irq fiq .signedByte rd a s) h
  | tLdrhReg ro rb rd =>
    exact answer_follows ((baseIndex_follows irq fiq rb ro s).bind fun a => writeReg_loadOf_follows irq fiq .half rd a s) h
  | tLdsh ro rb rd =>
    exact answer_follows ((baseIndex_follows irq fiq rb ro s).bind fun a =>
      writeReg_loadOf_follows irq fiq .signedHalf rd a s) h
  | tLdrImm n rb rd =>
    exact answer_follows ((baseOffset_follows irq fiq (lowReg rb) _ s).bind fun a =>
      writeReg_loadOf_follows irq fiq .word rd a s) h
  | tLdrbImm n rb rd =>
    exact answer_follows ((baseOffset_follows irq fiq (lowReg rb) _ s).bind fun a =>
      writeReg_loadOf_follows irq fiq .byte rd a s) h
  | tLdrhImm n rb rd =>
    exact answer_follows ((baseOffset_follows irq fiq (lowReg rb) _ s).bind fun a =>
      writeReg_loadOf_follows irq fiq .half rd a s) h
  | tLdrSp rd =>
    exact answer_follows ((baseOffset_follows irq fiq 13 _ s).bind fun a =>
      writeReg_loadOf_follows irq fiq .word rd a s) h
  | tAddPc | tBlFirst =>
    exact answer_follows (writeReg_follows irq fiq _ _ s) h
  | tAddSpRd | tAddSpImm | tSubSpImm =>
    exact answer_follows ((readReg_follows irq fiq _ s).bind fun _ => writeReg_follows irq fiq _ _ s) h
  | tPush =>
    exact answer_follows (push_follows irq fiq _ _ s) h
  | tPop =>
    exact answer_follows (pop_follows irq fiq _ _ s) h
  | tStmia =>
    exact answer_follows (lowStoreMultiple_follows irq fiq _ _ s) h
  | tLdmia =>
    exact answer_follows (lowLoadMultiple_follows irq fiq _ _ s) h
  | tSwi | tUndefinedDe | tUndefinedE8 | tUndefinedB =>
    exact answer_follows (raise_follows irq fiq _ _ s) h
  | tBCond c soff8 =>
    have hexec (u : State) : exec (.tBCond c soff8) u =
        whenPassed c u (.ok (writePc (u.regs.pc + soff8Offset soff8) u)) := rfl
    rw [hexec] at h ⊢
    exact whenPassed_follows (.ok _) h
  | tB =>
    exact answer_follows (.ok _) h
  | tBlSecond =>
    exact answer_follows ((readReg_follows irq fiq _ s).bind fun _ => (writeReg_follows irq fiq _ _ s).bind fun t =>
      .ok (writePc _ t)) h

end

/-! ### The end of a step -/

section
variable (irq fiq : Bool) (s : State)

theorem fetchArm_setLines : fetchArm (setLines irq fiq s) = ((fetchArm s).1, setLines irq fiq (fetchArm s).2) := by
  have hread : fetch32 s.regs.pc (setLines irq fiq s) = _ := read32_setLines irq fiq s.regs.pc s
  simp only [fetchArm, setLines_regs, hread]
  rfl

theorem fetchThumb_setLines : fetchThumb (setLines irq fiq s) = ((fetchThumb s).1, setLines irq fiq (fetchThumb s).2) := by
  have hread : read16 s.regs.pc (setLines irq fiq s) = _ := read16_setLines irq fiq s.regs.pc s
  simp only [fetchThumb, fetch16, setLines_regs, hread]
  rfl

theorem advance_setLines : advance (setLines irq fiq s) = setLines irq fiq (advance s) := by
  simp only [advance, setLines_cpsr, fetchArm_setLines, fetchThumb_setLines]
  split <;> rfl

theorem flush_setLines : flush (setLines irq fiq s) = setLines irq fiq (flush s) := by
  simp only [flush, setLines_cpsr, fetchArm_setLines, fetchThumb_setLines]
  split <;> rfl

theorem finishStep_setLines : finishStep (setLines irq fiq s) = setLines irq fiq (finishStep s) := by
  have hkept : (if s.flushRequested then flush (setLines irq fiq s) else setLines irq fiq s) =
      setLines irq fiq (if s.flushRequested then flush s else s) := by
    rw [flush_setLines, apply_ite (setLines irq fiq)]
  unfold finishStep
  rw [setLines_flushRequested, hkept]
  generalize (if s.flushRequested then flush s else s) = u
  dsimp only [setLines]
  split
  · rfl
  · exact advance_setLines irq fiq { u with flushRequested := false }

end

/-! ### The policies -/

section
variable {s : State} {e : Exception}

theorem pendingInterrupt_fiq (hline : s.fiqLine = true) (hmask : s.cpsr.f = false) : pendingInterrupt s = some .fiq := by
  rw [pendingInterrupt, hline, hmask]
  rfl

theorem pendingInterrupt_irq (hfiq : ¬(s.fiqLine = true ∧ s.cpsr.f = false)) (hline : s.irqLine = true)
    (hmask : s.cpsr.i = false) : pendingInterrupt s = some .irq := by
  have hquiet : ¬(s.fiqLine && !s.cpsr.f) = true := by simpa using hfiq
  rw [pendingInterrupt, if_neg hquiet, hline, hmask]
  rfl

theorem pendingInterrupt_masked (hfiq : s.fiqLine = true → s.cpsr.f = true) (hirq : s.irqLine = true → s.cpsr.i = true) :
    pendingInterrupt s = none := by
  have hfiqQuiet : ¬(s.fiqLine && !s.cpsr.f) = true := by simpa using hfiq
  have hirqQuiet : ¬(s.irqLine && !s.cpsr.i) = true := by simpa using hirq
  rw [pendingInterrupt, if_neg hfiqQuiet, if_neg hirqQuiet]

/-- Under `Trap` the interrupt is entered in place of the instruction (`60_exceptions.md` R908). -/
theorem step_of_trap (hfault : s.faulted = none) (hprimed : s.primed = true) (hpolicy : s.config.excPolicy = .trap)
    (hpending : pendingInterrupt s = some e) :
    step s = .next (finishStep (enterException e { s with flushRequested := false })) := by
  have hrun : dispatch exec { s with flushRequested := false } =
      .next (enterException e { s with flushRequested := false }) := by
    have hpending' : pendingInterrupt { s with flushRequested := false } = some e := hpending
    rw [dispatch, hpolicy, hpending']
  unfold step stepWith
  rw [hrun, hfault, hprimed, if_pos rfl]

/-- Under `Fault` it stops the run (`60_exceptions.md` R908). -/
theorem step_of_interruptNotModelled (hfault : s.faulted = none) (hprimed : s.primed = true)
    (hpolicy : s.config.excPolicy = .fault) (hpending : pendingInterrupt s = some e) :
    step s = .fault (stop .interruptNotModelled { s with flushRequested := false }) := by
  have hrun : dispatch exec { s with flushRequested := false } =
      .fault (stop .interruptNotModelled { s with flushRequested := false }) := by
    have hpending' : pendingInterrupt { s with flushRequested := false } = some e := hpending
    rw [dispatch, hpolicy, hpending']
  unfold step stepWith
  rw [hrun, hfault, hprimed, if_pos rfl]

end

/-- Settles O9: FIQ comes before IRQ among what is pending (`pendingInterrupt_fiq`, `pendingInterrupt_irq`), each policy does
its own with it (`step_of_trap`, `step_of_interruptNotModelled`), a masked line leaves the executing instruction to run, and
under `Noop` neither the instruction nor the end of the step reads a line (`exec_setLines`, `finishStep_setLines`). -/
theorem interruptLines : Obligations.InterruptLines := by
  unfold Obligations.InterruptLines
  intro s hfault hprimed s0
  refine ⟨fun hpolicy hline hmask => ?fiq, fun hpolicy hfiq hline hmask => ?irq, fun hpolicy hline => ?fault,
    fun hfiq hirq => ?masked, fun hpolicy irq fiq t ht => ?noop⟩
  case fiq => exact step_of_trap hfault hprimed hpolicy (pendingInterrupt_fiq hline hmask)
  case irq => exact step_of_trap hfault hprimed hpolicy (pendingInterrupt_irq hfiq hline hmask)
  case fault =>
    by_cases hfiq : s.fiqLine = true ∧ s.cpsr.f = false
    · exact step_of_interruptNotModelled hfault hprimed hpolicy (pendingInterrupt_fiq hfiq.1 hfiq.2)
    · obtain ⟨hirq, hmask⟩ := hline.resolve_left hfiq
      exact step_of_interruptNotModelled hfault hprimed hpolicy (pendingInterrupt_irq hfiq hirq hmask)
  case masked =>
    have hnone := pendingInterrupt_masked hfiq hirq
    exact ⟨hnone, fun i hi => ⟨fun t => step_of_exec_next hfault hprimed hi (.inr hnone),
      fun f => step_of_exec_fault hfault hprimed hi (.inr hnone)⟩⟩
  case noop =>
    obtain ⟨-, -, u, rfl, hran⟩ := step_eq_next ht
    rcases hran with ⟨e, htrap, -⟩ | ⟨i, hi, hexec⟩
    · cases hpolicy.symm.trans htrap
    · have hexec' := exec_setLines (irq := irq) (fiq := fiq) hexec
      exact (step_of_exec_next (s := setLines irq fiq s) hfault hprimed hi (.inl hpolicy) hexec').trans
        (congrArg _ (finishStep_setLines irq fiq u))

end Sys2Proof.Machine
end
